-- ==== Sys2Proof/Word.lean ====
section
/-! DEFINITION. The widths the manual gives its quantities, and the 72-bit memory word. -/

namespace Sys2Proof

/-- One byte of the cable, or one byte lane of the bus (spec section 6.1, R172). -/
abbrev Byte := BitVec 8

/-- The 64 data bits of one word (spec section 5, "Word"). -/
abbrev DWord := BitVec 64

/-- A 19-bit word address, 0 to 524,287 (spec sections 4 and 6.1). -/
abbrev Addr := BitVec 19

/-- A 16-bit sequence number, counted modulo 65,536 (spec section 6.3). -/
abbrev SeqNo := BitVec 16

/-- The epoch E, 0..2^32−1 (R133, R137). -/
abbrev Epoch := BitVec 32

/-- The generation G, 0..65,535 (R132). -/
abbrev Gen := BitVec 16

/-- A 32-bit count (R23, R62, R90, R98, R111). -/
abbrev Count := BitVec 32

/-- A window slot number, 0 to 7 (R1). -/
abbrev Slot := Fin 8

/-- One word of the session SSRAM: 64 data bits and 8 check bits (spec section 5, "Word"). -/
structure MWord where
  data  : DWord
  check : Byte
deriving DecidableEq, Repr

end Sys2Proof
end

