-- ==== Sys2Proof/Config.lean ====
section
/-! DEFINITION. What an implementation or its board fixes, and the two values that are left open. -/

namespace Sys2Proof.Config

/-- FREE VALUE (log entry 4). The 8 check bits that the SSRAM holds after a processor write that
enables some bytes of the word and not all. R16 says that the eight driven check bits reach the memory
port; no rule says what the memory keeps of them when only some byte enables are set. The arguments are
the word before the write and the data, the check bits and the byte enables of the write. -/
opaque partialWriteCheck (old : MWord) (data : DWord) (check enables : Byte) : Byte

/-- FREE VALUE (log entry 14). At draw `n`, the last byte of the frame last started has left before a go-back removes the
frame's entry. R59 cuts a frame that is being transmitted and no other. The end of a frame lies between its start and the
next frame boundary (R56), and no row of the table tells it. -/
opaque lastByteLeft (n : Nat) : Bool

/-- What a word that nothing has written reads as: data 0 with check bits 0, a GOOD word of R34.
DESIGN CHOICE, unsafe (log entry 3): the manual says that the SSRAM content after power-on is unknown. -/
def unwrittenWord : MWord := ⟨0, 0⟩

/-- First word of the status page (spec section 2). -/
def statusBase : Nat := 524160

/-- First word of the control page (spec section 2). -/
def controlBase : Nat := 524224

/-- The capacity of the in-flight list and of the apply queue (R65, R103). -/
def listRoom : Nat := 16

/-- The capacity of the Journal Queue (R71). -/
def journalRoom : Nat := 128

/-- The copy of a journal window inserts only while the Journal Queue holds fewer entries (R75). -/
def copyRoom : Nat := 64

/-- The number of tags, the most records the RECORD windows may hold together (R9, R35). -/
def tagRoom : Nat := 65536

end Sys2Proof.Config
end

