-- ==== Sys2Proof/Syntax.lean ====
section
/-! DEFINITION. The commands: one constructor of `Instr` for each row of spec/opcode_table.json, and
the frames, bytes and bus accesses they carry. -/

namespace Sys2Proof

/-- The six roles of R133; their codes are those of R174. -/
inductive Role where
  | init | standby | takeover | active | handoff | released
deriving DecidableEq, Repr

/-- The three sync states of R133. -/
inductive SyncState where
  | unsynced | syncing | inSync
deriving DecidableEq, Repr

/-- Unit A or unit B, from the UNIT_B strap (R135). -/
inductive UnitId where
  | a | b
deriving DecidableEq, Repr

/-- The geometry of one slot as a HELLO carries it (R15, R174). `nLess1` is N − 1. -/
inductive Geometry where
  | none
  | record (size : Byte) (nLess1 : BitVec 16) (volatileSet : BitVec 16) (stateWord : Byte)
  | journal (length : BitVec 16)
deriving DecidableEq, Repr

/-- What a HELLO carries (R83, R174). -/
structure HelloFrame where
  unit     : UnitId
  role     : Role
  sync     : SyncState
  epoch    : Epoch
  gen      : Gen
  seen     : Bool
  geometry : Vector Geometry 8
deriving DecidableEq, Repr

/-- What a HEARTBEAT carries (R99, R174). -/
structure HeartbeatFrame where
  role    : Role
  sync    : SyncState
  epoch   : Epoch
  gen     : Gen
  applied : SeqNo
deriving DecidableEq, Repr

/-- The content of the eight sequenced frame kinds (R88, R103). -/
inductive SeqBody where
  | record (slot : Slot) (index : BitVec 16) (words : List DWord)
  | tombstone (slot : Slot) (index : BitVec 16)
  | discard (slot : Slot) (index : BitVec 16)
  | journalWord (slot : Slot) (offset : BitVec 16) (mask : Byte) (word : DWord)
  | journalBlock (slot : Slot) (offset : BitVec 16) (copyLast : Bool) (w0 w1 w2 w3 : DWord)
  | syncBegin
  | syncDone (gen : Gen)
  | handover (epoch : Epoch)
deriving DecidableEq, Repr

/-- A sequenced frame, and the entry of the apply queue built from it (R88, R103). -/
structure SeqFrame where
  seq  : SeqNo
  body : SeqBody
deriving DecidableEq, Repr

/-- The twelve frame kinds of R88. -/
inductive Frame where
  | hello (h : HelloFrame)
  | heartbeat (h : HeartbeatFrame)
  | ack (applied : SeqNo)
  | nak (expected : SeqNo)
  | sequenced (f : SeqFrame)
deriving DecidableEq, Repr

/-- One access of the processor at the upstream port (R16). A read drives no data, check bits or
byte enables; its last three fields are not consulted. -/
structure Access where
  write   : Bool
  addr    : Addr
  data    : DWord
  check   : Byte
  enables : Byte
deriving DecidableEq, Repr

/-- The commands the block takes: the rows of spec/opcode_table.json, in the table's order.

A processor write carries the data, check bits and byte enables it drives (R16). The rows of the control
page carry no address where the row fixes the word. A command row is the write of control page word 0
that enables byte 0 and drives the row's code there (R175, R176): `rest` is the other seven bytes of the
data and `enables` their byte enables. The operands of the command stand in the shadow of words 1..3, where
`controlPageWrite` puts them (R19). -/
inductive Instr where
  /-- POWER_ON_RESET (R133). `strapB`: the UNIT_B strap selects unit B. -/
  | powerOnReset (strapB : Bool)
  /-- ORDINARY_ACCESS (R17): a read or a write. -/
  | ordinaryAccess (a : Access)
  /-- CONTROL_PAGE_WRITE (R18), of control page word `word`. -/
  | controlPageWrite (word : BitVec 6) (data : DWord) (check enables : Byte)
  /-- STATUS_PAGE_WRITE (R21), of status page word `word`. -/
  | statusPageWrite (word : BitVec 6) (data : DWord) (check enables : Byte)
  /-- RECORD_WINDOW_WRITE (R22). -/
  | recordWindowWrite (addr : Addr) (data : DWord) (check enables : Byte)
  /-- JOURNAL_WINDOW_WRITE (R25). -/
  | journalWindowWrite (addr : Addr) (data : DWord) (check enables : Byte)
  /-- JOURNAL_STALL_ROOM (R26). -/
  | journalStallRoom
  /-- JOURNAL_STALL_EXPIRY (R26). -/
  | journalStallExpiry
  /-- WINDOW_READ (R28). -/
  | windowRead (addr : Addr)
  /-- HELD_READ_RELEASE (R29). -/
  | heldReadRelease
  /-- LIVENESS_WRITE (R156): a write of control page word 8. -/
  | livenessWrite (data : DWord) (check enables : Byte)
  /-- NOTICE_ENABLE (R170): a write of control page word 9. -/
  | noticeEnable (data : DWord) (check enables : Byte)
  /-- NOTICE_CLEAR (R170): a write of control page word 10. -/
  | noticeClear (data : DWord) (check enables : Byte)
  /-- DEFINE_WINDOW (R5). -/
  | defineWindow (rest : BitVec 56) (check : Byte) (enables : BitVec 7)
  /-- CLEAR_WINDOW (R11). -/
  | clearWindow (rest : BitVec 56) (check : Byte) (enables : BitVec 7)
  /-- PROLONGED_COMMAND_COMPLETION (R160). -/
  | prolongedCommandCompletion
  /-- SET_TIMING (R164). -/
  | setTiming (rest : BitVec 56) (check : Byte) (enables : BitVec 7)
  /-- START (R139). -/
  | start (rest : BitVec 56) (check : Byte) (enables : BitVec 7)
  /-- STOP (R140). -/
  | stop (rest : BitVec 56) (check : Byte) (enables : BitVec 7)
  /-- SWITCHOVER (R146). -/
  | switchover (rest : BitVec 56) (check : Byte) (enables : BitVec 7)
  /-- TAKE_OVER (R143). -/
  | takeOver (rest : BitVec 56) (check : Byte) (enables : BitVec 7)
  /-- RELEASE (R154). -/
  | release (rest : BitVec 56) (check : Byte) (enables : BitVec 7)
  /-- RESUME (R155). -/
  | resume (rest : BitVec 56) (check : Byte) (enables : BitVec 7)
  /-- RESYNC (R129). -/
  | resync (rest : BitVec 56) (check : Byte) (enables : BitVec 7)
  /-- QUERY_RECORD (R55). -/
  | queryRecord (rest : BitVec 56) (check : Byte) (enables : BitVec 7)
  /-- UNKNOWN_COMMAND (R159), with its code. -/
  | unknownCommand (code : Byte) (rest : BitVec 56) (check : Byte) (enables : BitVec 7)
  /-- INTERFACE_RESET_END (R80). -/
  | interfaceResetEnd
  /-- TRAINING_BYTE_RECEIVED (R81): the byte's value and FRAME in its first and second clock periods. -/
  | trainingByteReceived (value : Byte) (first second : Bool)
  /-- BYTE_BETWEEN_FRAMES (R82): the byte's value and FRAME in its first and second clock periods. -/
  | byteBetweenFrames (value : Byte) (first second : Bool)
  /-- RECEIVED_CLOCK_TIMEOUT (R82). -/
  | receivedClockTimeout
  /-- HELLO_STATE_TIMEOUT (R83). -/
  | helloStateTimeout
  /-- HELLO_INTERVAL (R83). -/
  | helloInterval
  /-- FRAME_TRANSMIT_START (R56). -/
  | frameTransmitStart
  /-- HELLO_TRANSMITTED (R85). -/
  | helloTransmitted
  /-- HELLO_RECEIVED (R84). -/
  | helloReceived (h : HelloFrame)
  /-- HEARTBEAT_RECEIVED (R94). `ackFirst`: its A is resolved before its peer record is entered; the
  manual takes the two in either order (R128). -/
  | heartbeatReceived (h : HeartbeatFrame) (ackFirst : Bool)
  /-- ACK_RECEIVED (R66). -/
  | ackReceived (applied : SeqNo)
  /-- NAK_RECEIVED (R67). -/
  | nakReceived (expected : SeqNo)
  /-- SEQUENCED_FRAME_RECEIVED (R95). -/
  | sequencedFrameReceived (f : SeqFrame)
  /-- INVALID_FRAME (R90): bytes as they arrive, before a frame is delimited and judged. The first has FRAME high
  in both clock periods and the others have it low; `cutShort`: the next frame's first byte follows them (R89). -/
  | invalidFrame (bytes : List Byte) (cutShort : Bool)
  /-- HEARTBEAT_PERIOD_BOUNDARY (R100). -/
  | heartbeatPeriodBoundary
  /-- ACK_TIMER_EXPIRY (R68). -/
  | ackTimerExpiry
  /-- SEQUENCE_CLOSED_RETRAIN (R69). -/
  | sequenceClosedRetrain
  /-- ITEM_START (R57). -/
  | itemStart
  /-- READOUT_READ (R61). -/
  | readoutRead
  /-- COPY_START (R74), of the window in `slot`. -/
  | copyStart (slot : Slot)
  /-- BLOCK_INSERTION (R75). -/
  | blockInsertion
  /-- APPLY_MERGE_READ (R107). -/
  | applyMergeRead
  /-- APPLY_WORD_WRITE (R104). -/
  | applyWordWrite
  /-- SYNC_VISIT (R121). -/
  | syncVisit
  /-- SYNC_COMPLETION (R126). -/
  | syncCompletion
  /-- REFRESH_VISIT (R130). -/
  | refreshVisit
  /-- REFRESH_PASS_END (R130). -/
  | refreshPassEnd
  /-- CLAIM_IN_CHANGE (R134): the newly sampled level, true for asserted. -/
  | claimInChange (asserted : Bool)
  /-- DUAL_CLAIM_TIMER_EXPIRY (R152). -/
  | dualClaimTimerExpiry
  /-- HANDOFF_TIMER_EXPIRY (R149). -/
  | handoffTimerExpiry
  /-- LIVENESS_EXPIRY (R156). -/
  | livenessExpiry
  /-- BUS_CLOCK_LOST (R157): 100 ticks of REFCLK have passed with no edge of BCLK. -/
  | busClockLost
  /-- BUS_CLOCK_RETURN (R157). -/
  | busClockReturn
  /-- POSTING_TICK (R166). -/
  | postingTick
  /-- STATUS_POSTING_WRITE (R167). -/
  | statusPostingWrite
deriving DecidableEq, Repr

end Sys2Proof
end

