-- ==== Sys2Proof/Machine/State.lean ====
section
/-! DEFINITION. The state of the part, block by block as spec section 3 names the blocks, the
SSRAM behind its memory port, and the queue of commands that wait. Plain data throughout. -/

namespace Sys2Proof.Machine

/-- The reasons the part stops: none. The manual names no condition under which the part stops; every
command has a next state. A closed inductive with no constructor, so it is safe. -/
inductive Fault
deriving DecidableEq, Repr

/-- The reasons a command is refused. -/
inductive Refusal where
  /-- Raised by an arm of `exec` whose command has no meaning in the model; no arm of this model raises it.
  Safe: the model stops where the part goes on. -/
  | notModelled (mnemonic : String)
deriving DecidableEq, Repr

/-! ## Window Table -/

/-- The fields a slot of kind RECORD keeps (R1). -/
structure RecordWindow where
  base        : Nat
  size        : Nat
  count       : Nat
  priority    : Fin 4
  volatileSet : BitVec 16
  stateWord   : Nat
  refresh     : Bool
  tagBase     : Nat
deriving DecidableEq, Repr

/-- The fields a slot of kind JOURNAL keeps (R1). -/
structure JournalWindow where
  base     : Nat
  length   : Nat
  priority : Fin 4
deriving DecidableEq, Repr

/-- One window slot (R1). -/
inductive Window where
  | none
  | record (w : RecordWindow)
  | journal (w : JournalWindow)
deriving DecidableEq, Repr

/-! ## Bus Pass-Through -/

/-- The hold of the current upstream access (R16, R26, R28). -/
inductive Held where
  /-- no access is held -/
  | none
  /-- a read held against the apply queue (R28) -/
  | read (addr : Addr)
  /-- a journal write stalled on a full Journal Queue, with the tick boundaries passed (R26) -/
  | stall (a : Access) (ticks : Nat)
  /-- an access decoded or released whose memory cycle waits for a slot (R27, R29, R30, R32) -/
  | port (a : Access)
deriving DecidableEq, Repr

/-- One offered part request, named so that a replaced or withdrawn request is told from the old one
(R30, R31). -/
inductive Offer where
  | apply (seq : SeqNo) (written : Nat) (merged : Bool)
  | readout (seq : SeqNo) (restarts next : Nat)
  | status (word : Nat)
deriving DecidableEq, Repr

/-- The Bus Pass-Through (spec chapter 2). `offers` lists the classes with a waiting request, the
longest waiting first (R31). `waiting` lists the accesses that wait behind a held one (R16).
`readData` is the word the upstream port last returned (R16). -/
structure Bpt where
  shadow     : Vector DWord 16
  held       : Held
  waiting    : List Access
  suppressed : Count
  waitCount  : Nat
  offers     : List Offer
  readData   : MWord
deriving DecidableEq, Repr

/-! ## Record Tag Store -/

/-- The six states of a tag in use (R35). -/
inductive TagState where
  | clean | stale | dirty | flight | flightStale | flightDirty
deriving DecidableEq, Repr

/-- A tag: its state and its covered mark (R35). -/
structure Tag where
  state   : TagState
  covered : Bool
deriving DecidableEq, Repr

/-- The Record Tag Store (spec chapter 3). `tags` lists, by rising tag number, every tag that is not
CLEAN with its covered mark set. The dirty maps, the counts and the totals of R36 are views of the tags
(Machine/Tags.lean). -/
structure Rts where
  tags        : List (Nat × Tag)
  pointers    : Vector Nat 8
  outstanding : Nat
deriving DecidableEq, Repr

/-! ## Journal Queue -/

/-- The state of one JOURNAL window (R73); COPYING carries the copy position (R75). -/
inductive JournalState where
  | inStep
  | desync
  | copying (position : Nat)
deriving DecidableEq, Repr

/-- An entry of the Journal Queue (R71). -/
inductive JournalEntry where
  | word (slot : Slot) (offset : Nat) (data : DWord) (mask : Byte)
  | block (slot : Slot) (offset : Nat) (copyLast : Bool)
deriving DecidableEq, Repr

/-- An entry with its sent mark (R71). -/
structure QueuedEntry where
  entry : JournalEntry
  sent  : Bool
deriving DecidableEq, Repr

/-- The Journal Queue and the journal window states (R71, R73). A slot that is not of kind JOURNAL has
no journal state. -/
structure Journals where
  queue  : List QueuedEntry
  states : Vector (Option JournalState) 8
deriving DecidableEq, Repr

/-! ## Dispatcher -/

/-- The classes of a word read (R34). -/
inductive ReadClass where
  | good | corrected | uncorrectable
deriving DecidableEq, Repr

/-- A control item (R65). SYNC_DONE carries G and HANDOVER carries E as they stood at its start (R59). -/
inductive ControlItem where
  | syncBegin
  | syncDone (gen : Gen)
  | handover (epoch : Epoch)
deriving DecidableEq, Repr

/-- What an in-flight entry carries (R65). -/
inductive Item where
  | record (slot : Slot) (index : Nat)
  | journal (entry : JournalEntry)
  | control (item : ControlItem)
deriving DecidableEq, Repr

/-- The frame form a record readout decides (R65). -/
inductive RecordForm where
  | record | tombstone | discard
deriving DecidableEq, Repr

/-- An entry of the in-flight list (R65). -/
structure InFlight where
  seq         : SeqNo
  item        : Item
  form        : Option RecordForm
  transmitted : Bool
  readout     : Option (Fin 4)
deriving DecidableEq, Repr

/-- What an occupied readout slot reads (spec section 4.2). -/
inductive ReadItem where
  | record (slot : Slot) (index : Nat)
  | block (slot : Slot) (offset : Nat)
deriving DecidableEq, Repr

/-- An occupied readout slot (spec section 4.2). `words` are the words read so far, in the order read. The
selection order of the occupied slots is the order of the in-flight entries they serve. -/
structure Readout where
  seq      : SeqNo
  item     : ReadItem
  reading  : Bool
  words    : List (DWord × ReadClass)
  restarts : Nat
deriving DecidableEq, Repr

/-- The Dispatcher (spec chapter 4). A timer is `none` while stopped and counts ticks while it runs. -/
structure Dispatcher where
  roundRobin   : Vector Slot 4
  readouts     : Vector (Option Readout) 4
  inFlight     : List InFlight
  syncBeginArm : Bool
  syncDoneArm  : Bool
  handoverArm  : Bool
  ackTimer     : Option Nat
  seqClosed    : Bool
  corrected    : Count
deriving DecidableEq, Repr

/-! ## Pairing Link -/

/-- The five link states (spec section 5.2). -/
inductive LinkState where
  | off | train | hello | up | incompatible
deriving DecidableEq, Repr

/-- The peer view (R101). -/
inductive PeerView where
  | none | paired | interrupted | lost
deriving DecidableEq, Repr

/-- The peer record (R94). -/
structure PeerRecord where
  role  : Role
  sync  : SyncState
  epoch : Epoch
  gen   : Gen
deriving DecidableEq, Repr

/-- The frame last started on the cable, until the next frame boundary (R56, log entry 14); `cut` when a go-back has turned
its CRC over (R59). -/
structure Sending where
  frame : Frame
  cut   : Bool
deriving DecidableEq, Repr

/-- The Pairing Link (spec chapter 5).
`divider` is the DIV taken at the last entry to TRAIN (R77). `resetTicks` counts the ticks of the
interface reset while the forwarded clock is stopped for it (R80). `strayBytes` counts the consecutive
bytes between frames that keep no alignment (R81, R82). `helloPassed`, `helloSeenIn` and `helloSeenOut` are
the HELLO progress of R83 and R85. `incoming` holds the bytes of the frame the receiver is reading, since its
first byte (R89). `heartbeatWaiting` tells that a period boundary has passed since the last HEARTBEAT was
started (R56). `helloClock` counts ticks since the last HELLO was started and
`helloAge` since HELLO was entered (R83). `periodClock` counts the ticks of the running heartbeat period
(R99) and `frameInPeriod` tells whether a valid frame arrived in it (R100). `frameAtBoundary` tells whether one arrived at
the instant at which it ends, and so in the period that begins there (R99, R102, log entry 32). -/
structure Link where
  state            : LinkState
  divider          : Nat
  resetTicks       : Option Nat
  alignCount       : Nat
  aligned          : Bool
  strayBytes       : Nat
  incoming         : Option (List Byte)
  seen             : Bool
  helloPassed      : Bool
  helloSeenIn      : Bool
  helloSeenOut     : Bool
  nextSeq          : SeqNo
  expected         : SeqNo
  nakPending       : Bool
  ackWaiting       : Bool
  nakWaiting       : Bool
  heartbeatWaiting : Bool
  helloWaiting     : Bool
  helloClock       : Nat
  helloAge         : Nat
  periodClock      : Option Nat
  frameInPeriod    : Bool
  frameAtBoundary  : Bool
  missCount        : Nat
  view             : PeerView
  peer             : PeerRecord
  crcErrors        : Count
  protocolErrors   : Count
  sending          : Option Sending
deriving DecidableEq, Repr

/-! ## Apply Engine -/

/-- The Apply Engine (spec chapter 6). `written` words of the head entry are written; `merged` holds the
merged word of a partial JOURNAL_WORD once its read has been granted, with the class of that read (R107). -/
structure ApplyEngine where
  queue   : List SeqFrame
  written : Nat
  merged  : Option (DWord × ReadClass)
  applied : SeqNo
  lastAck : SeqNo
  counts  : Vector Count 8
deriving DecidableEq, Repr

/-! ## Pass Engine -/

/-- The sync phase (R117). -/
inductive SyncPhase where
  | none | passing | completing
deriving DecidableEq, Repr

/-- The awaited SYNC_DONE item (R117): none, armed and not yet started, or started with this sequence
number. -/
inductive Awaited where
  | none
  | armed
  | started (seq : SeqNo)
deriving DecidableEq, Repr

/-- The Pass Engine (R117). -/
structure PassEngine where
  phase        : SyncPhase
  syncPos      : Nat
  syncClock    : Nat
  awaited      : Awaited
  refreshing   : Bool
  refreshPos   : Nat
  refreshClock : Nat
  gen          : Gen
deriving DecidableEq, Repr

/-! ## Role Controller -/

/-- The dual-claim timer (R133, R152). -/
inductive DualTimer where
  | stopped
  | running (ticks : Nat)
  | expired
deriving DecidableEq, Repr

/-- The bus clock monitor (R133, R157). -/
inductive BusClock where
  | notWatching | present | lost
deriving DecidableEq, Repr

/-- The Role Controller (R133), with the sampled CLAIM_IN level (R134). `bclkQuiet` counts the ticks since the last
edge of BCLK; it is none while BCLK runs (R32, R157). -/
structure RoleController where
  role     : Role
  closing  : Bool
  sync     : SyncState
  epoch    : Epoch
  unit     : UnitId
  claimOut : Bool
  claimIn  : Bool
  dual     : DualTimer
  handoff  : Option Nat
  handoffMs : Nat
  liveness : Option Nat
  busClock : BusClock
  bclkQuiet : Option Nat
deriving DecidableEq, Repr

/-! ## Control and Status Unit -/

/-- The sync mode with its own parameter (R164). -/
inductive SyncMode where
  | demand (backlog : Nat)
  | paced (seconds : Nat)
deriving DecidableEq, Repr

/-- The timing configuration (R164). -/
structure Timing where
  divider         : Nat
  heartbeatMs     : Nat
  missLimit       : Nat
  refreshMs       : Nat
  livenessMs      : Nat
  livenessRelease : Bool
  takeoverAuto    : Bool
  syncMode        : SyncMode
deriving DecidableEq, Repr

/-- The result codes (R163), coded as R177 gives. -/
inductive ResultCode where
  | ok | okClamped | wrongRole | badArgument | overlap | capacity
  | notPaired | peerActive | timeout | linkLost | aborted | unknownCommand
deriving DecidableEq, Repr

/-- The result word (R159, R177). -/
structure ResultWord where
  code   : Byte
  result : ResultCode
  field  : BitVec 32
  done   : Bool
deriving DecidableEq, Repr

/-- The running prolonged command (R160), with the ticks since its intake. -/
inductive Running where
  | define (slot : Slot) (w : Window) (ticks : Nat)
  | clear (slot : Slot) (ticks : Nat)
  | switchover
deriving DecidableEq, Repr

/-- The marker of the discard detail (R165, R178). -/
inductive DiscardMarker where
  | none | record | journalBlock | journalWord
deriving DecidableEq, Repr

/-- The discard detail of status word 6 (R165). -/
structure DiscardDetail where
  marker : DiscardMarker
  slot   : Slot
  place  : Nat
deriving DecidableEq, Repr

/-- One pending status word: its number and its value (R166). -/
structure Posting where
  word  : Nat
  value : DWord
deriving DecidableEq, Repr

/-- The Control and Status Unit (spec chapter 9). `running` is none while the CSU is idle (R159).
`intHigh` is the level of INT_N (R171). `lastCounts` holds, by word number, the value last made pending
for each count word, and `postClock` the ticks since the last posting tick (R166). -/
structure Csu where
  running    : Option Running
  result     : ResultWord
  timing     : Timing
  pendingSet : BitVec 16
  enableSet  : BitVec 16
  intHigh    : Bool
  postQueue  : List Posting
  resultHold : Option DWord
  lastCounts : List Posting
  postClock  : Nat
  discard    : DiscardDetail
  violation  : Addr
deriving DecidableEq, Repr

/-! ## The whole state -/

/-- The session SSRAM: the words that differ from `Config.unwrittenWord`, by rising word address. -/
abbrev Memory := List (Nat × MWord)

/-- The part, the SSRAM at its memory port, and two fields of the model's own: the number of values drawn from
`Config.lastByteLeft` (log entry 14) and the commands that wait, the front first (log entry 1). -/
structure State where
  windows : Vector Window 8
  bpt     : Bpt
  rts     : Rts
  journals : Journals
  disp    : Dispatcher
  link    : Link
  apply   : ApplyEngine
  pass    : PassEngine
  rc      : RoleController
  csu     : Csu
  mem     : Memory
  draws   : Nat
  pending : List Instr
deriving DecidableEq, Repr

/-! ## Reset -/

/-- The default timing configuration (R164). -/
def defaultTiming : Timing where
  divider         := 1
  heartbeatMs     := 100
  missLimit       := 3
  refreshMs       := 2000
  livenessMs      := 0
  livenessRelease := false
  takeoverAuto    := true
  syncMode        := .demand 32

/-- Status word 0 after power-on reset: all of its fields are 0 but the unit (R168, R178). -/
def resetWord0 : UnitId → DWord
  | .a => 0
  | .b => 0x10000

/-- Status word 2 after power-on reset: command none, OK, result field 0, DONE set (R168, R177). -/
def resetWord2 : DWord := 0x8000000000000000

/-- The 64 status words that power-on reset makes pending, in ascending order (R168). -/
def resetPostings (u : UnitId) : List Posting :=
  (List.range 64).map fun w =>
    ⟨w, if w = 0 then resetWord0 u else if w = 2 then resetWord2 else 0⟩

/-- The count words of the status page (R165). -/
def countWords : List Nat := [4, 5, 8, 9, 10, 11, 12, 13, 14, 15, 16, 17, 18]

/-- The part after power-on reset with unit `u` on its strap, over the memory `m`, the CLAIM_IN level
`claimIn`, the ticks `quiet` since the last edge of BCLK, the number `draws` of values drawn and the waiting commands `q`,
which no rule resets (R4, R20, R23, R31, R48, R58, R70, R79, R94, R98, R100, R101, R109, R110, R117, R133, R164, R168,
R169, R170, R171). D_sw and the upstream read data have no reset value in the manual (log entry 2). -/
def powerOn (u : UnitId) (claimIn : Bool) (quiet : Option Nat) (m : Memory) (draws : Nat) (q : List Instr) :
    State where
  windows := Vector.replicate 8 .none
  bpt :=
    { shadow := Vector.replicate 16 0, held := .none, waiting := [], suppressed := 0, waitCount := 0,
      offers := [.status 0], readData := ⟨0, 0⟩ }
  rts := { tags := [], pointers := Vector.replicate 8 0, outstanding := 0 }
  journals := { queue := [], states := Vector.replicate 8 none }
  disp :=
    { roundRobin := Vector.replicate 4 7, readouts := Vector.replicate 4 none, inFlight := [],
      syncBeginArm := false, syncDoneArm := false, handoverArm := false, ackTimer := none,
      seqClosed := false, corrected := 0 }
  link :=
    { state := .off, divider := 1, resetTicks := none, alignCount := 0, aligned := false, strayBytes := 0,
      incoming := none, seen := false, helloPassed := false, helloSeenIn := false, helloSeenOut := false, nextSeq := 0,
      expected := 0, nakPending := false, ackWaiting := false, nakWaiting := false,
      heartbeatWaiting := false, helloWaiting := false, helloClock := 0, helloAge := 0,
      periodClock := none, frameInPeriod := false, frameAtBoundary := false, missCount := 0, view := .none,
      peer := { role := .init, sync := .unsynced, epoch := 0, gen := 0 },
      crcErrors := 0, protocolErrors := 0, sending := none }
  apply :=
    { queue := [], written := 0, merged := none, applied := 0, lastAck := 0,
      counts := Vector.replicate 8 0 }
  pass :=
    { phase := .none, syncPos := 0, syncClock := 0, awaited := .none, refreshing := false,
      refreshPos := 0, refreshClock := 0, gen := 0 }
  rc :=
    { role := .init, closing := false, sync := .unsynced, epoch := 0, unit := u, claimOut := false,
      claimIn := claimIn, dual := .stopped, handoff := none, handoffMs := 0, liveness := none,
      busClock := .notWatching, bclkQuiet := quiet }
  csu :=
    { running := none, result := { code := 0, result := .ok, field := 0, done := true },
      timing := defaultTiming, pendingSet := 0, enableSet := 0, intHigh := true,
      postQueue := resetPostings u, resultHold := none,
      lastCounts := countWords.map fun w => ⟨w, 0⟩, postClock := 0,
      discard := { marker := .none, slot := 0, place := 0 }, violation := 0 }
  mem := m
  draws := draws
  pending := q

/-- The machine right after reset: unit A on the strap, CLAIM_IN released, BCLK running, no memory word listed, no free
value drawn, no command waiting (log entries 2, 3 and 14). -/
def State.reset : State := powerOn .a false none [] 0 []

end Sys2Proof.Machine
end

