-- ==== Sys2Proof/Machine/Sparse.lean ====
section
/-! DEFINITION. Sparse tables with a default value, in one canonical form: keys strictly rising, and no
entry that holds the default. The SSRAM and the Record Tag Store are such tables. -/

namespace Sys2Proof.Machine

variable {α : Type} [DecidableEq α]

/-- The value at key `k`; a key that is not listed holds `d`. -/
def sparseGet (d : α) (k : Nat) : List (Nat × α) → α
  | [] => d
  | (k', v) :: rest => if k' = k then v else if k < k' then d else sparseGet d k rest

/-- The table with `v` at key `k`. Writing the default removes the entry. -/
def sparseSet (d : α) (k : Nat) (v : α) : List (Nat × α) → List (Nat × α)
  | [] => if v = d then [] else [(k, v)]
  | (k', v') :: rest =>
    if k < k' then
      if v = d then (k', v') :: rest else (k, v) :: (k', v') :: rest
    else if k = k' then
      if v = d then rest else (k, v) :: rest
    else (k', v') :: sparseSet d k v rest

/-- Every key of the table is above `k`. -/
def sparseAbove (k : Nat) (t : List (Nat × α)) : Bool :=
  t.all fun e => decide (k < e.1)

/-- The canonical form: keys strictly rising, no entry that holds the default. -/
def sparseWf (d : α) : List (Nat × α) → Bool
  | [] => true
  | (k, v) :: rest => decide (v ≠ d) && sparseAbove k rest && sparseWf d rest

end Sys2Proof.Machine
end

