-- ==== Sys2Proof/Machine/Ops.lean ====
section
/-! DEFINITION. The operations every block uses: changing one block of the state, sequence numbers,
saturating counts, the SSRAM's words, and the bytes of a word. -/

namespace Sys2Proof.Machine

/-! ## Changing one block -/

/-- The state with its Bus Pass-Through changed by `f`. -/
def State.onBpt (f : Bpt → Bpt) (s : State) : State := { s with bpt := f s.bpt }
/-- The state with its Record Tag Store changed by `f`. -/
def State.onRts (f : Rts → Rts) (s : State) : State := { s with rts := f s.rts }
/-- The state with its Journal Queue and journal states changed by `f`. -/
def State.onJournals (f : Journals → Journals) (s : State) : State := { s with journals := f s.journals }
/-- The state with its Dispatcher changed by `f`. -/
def State.onDisp (f : Dispatcher → Dispatcher) (s : State) : State := { s with disp := f s.disp }
/-- The state with its Pairing Link changed by `f`. -/
def State.onLink (f : Link → Link) (s : State) : State := { s with link := f s.link }
/-- The state with its Apply Engine changed by `f`. -/
def State.onApply (f : ApplyEngine → ApplyEngine) (s : State) : State := { s with apply := f s.apply }
/-- The state with its Pass Engine changed by `f`. -/
def State.onPass (f : PassEngine → PassEngine) (s : State) : State := { s with pass := f s.pass }
/-- The state with its Role Controller changed by `f`. -/
def State.onRc (f : RoleController → RoleController) (s : State) : State := { s with rc := f s.rc }
/-- The state with its Control and Status Unit changed by `f`. -/
def State.onCsu (f : Csu → Csu) (s : State) : State := { s with csu := f s.csu }
/-- The state with its SSRAM changed by `f`. -/
def State.onMem (f : Memory → Memory) (s : State) : State := { s with mem := f s.mem }
/-- The state with its Window Table changed by `f`. -/
def State.onWindows (f : Vector Window 8 → Vector Window 8) (s : State) : State :=
  { s with windows := f s.windows }
/-- The state after one more free value has been drawn. -/
def State.draw (s : State) : State := { s with draws := s.draws + 1 }

/-- Every slot in ascending order. -/
def allSlots : List Slot := [0, 1, 2, 3, 4, 5, 6, 7]

/-- A table of eight with every place changed by `f`. -/
def mapSlots {α β : Type} (f : α → β) (v : Vector α 8) : Vector β 8 := Vector.ofFn fun i => f v[i]

/-! ## Sequence numbers, counts and times -/

/-- How far `t` lies after `s`, modulo 65,536 (spec section 6.3). -/
def seqAhead (s t : SeqNo) : Nat := (t - s).toNat

/-- `s` is before `t` (spec section 6.3). -/
def seqBefore (s t : SeqNo) : Bool := decide (1 ≤ seqAhead s t ∧ seqAhead s t ≤ 32767)

/-- A count that saturates at 2^32−1, plus one (spec section 6.4; R23, R62, R90, R98). -/
def saturatingInc (c : Count) : Count := if c = BitVec.allOnes 32 then c else c + 1

/-- A running count has reached `n` ticks; a stopped one has not (spec section 6.5). -/
def reached (c : Option Nat) (n : Nat) : Bool :=
  match c with
  | some x => decide (n ≤ x)
  | none => false

/-- The greater of two epochs (R137). -/
def maxEpoch (a b : Epoch) : Epoch := if a.toNat < b.toNat then b else a

/-! ## The SSRAM -/

/-- The word the SSRAM holds at `a`. -/
def memRead (m : Memory) (a : Addr) : MWord := sparseGet Config.unwrittenWord a.toNat m

/-- The SSRAM with the whole word `w` at `a`. -/
def memWrite (m : Memory) (a : Addr) (w : MWord) : Memory := sparseSet Config.unwrittenWord a.toNat w m

/-- The canonical form of the SSRAM's list. -/
def Memory.wf (m : Memory) : Bool := sparseWf Config.unwrittenWord m

/-- The data bits that byte enable `b` covers, 8b+7:8b, all set if it is set (R180). -/
def laneMask (enables : Byte) (b : Nat) : DWord :=
  if enables.getLsbD b then (0xFF : DWord) <<< (8 * b) else 0

/-- The data bits that the byte enables select (spec section 6.1, R180). -/
def byteMask (enables : Byte) : DWord :=
  laneMask enables 0 ||| laneMask enables 1 ||| laneMask enables 2 ||| laneMask enables 3 |||
  laneMask enables 4 ||| laneMask enables 5 ||| laneMask enables 6 ||| laneMask enables 7

/-- `new` in the bytes whose enable is set, `old` in the others (R18, R107). -/
def mergeBytes (old new : DWord) (enables : Byte) : DWord :=
  (new &&& byteMask enables) ||| (old &&& ~~~ byteMask enables)

/-- The word that a processor write leaves in the SSRAM over the word `old`: as driven when every byte is enabled (R16), and
with the old data when none is (R54: such a write writes no byte). That the old check bits stay with it too is a DESIGN
CHOICE, since no rule ties the check lines to the byte enables (log entry 4). Otherwise the enabled bytes go over the old
ones, with check bits that the manual leaves open and a free value gives (log entry 4). -/
def writtenWord (old : MWord) (data : DWord) (check enables : Byte) : MWord :=
  if enables = 0xFF then ⟨data, check⟩
  else if enables = 0 then old
  else ⟨mergeBytes old.data data enables, Config.partialWriteCheck old data check enables⟩

/-- The SSRAM after the processor's write `a` has been driven (R16). -/
def memDrive (m : Memory) (a : Access) : Memory :=
  memWrite m a.addr (writtenWord (memRead m a.addr) a.data a.check a.enables)

end Sys2Proof.Machine
end

