-- ==== Sys2Proof/Machine/Windows.lean ====
section
/-! DEFINITION. The Window Table: extents, address mapping, the checks of DEFINE_WINDOW, tag bases and
geometry (spec chapter 1). -/

namespace Sys2Proof.Machine

/-! ## Extents and derived totals -/

/-- The first word of a defined window (R1). -/
def Window.base : Window → Nat
  | .none => 0
  | .record w => w.base
  | .journal w => w.base

/-- The number of words a window occupies: S × N, or L (R1). -/
def Window.words : Window → Nat
  | .none => 0
  | .record w => w.size * w.count
  | .journal w => w.length

/-- The record count a slot contributes to the total (R1, R3). -/
def Window.records : Window → Nat
  | .record w => w.count
  | _ => 0

/-- The record count a slot contributes to N_ref (R1). -/
def Window.refreshRecords : Window → Nat
  | .record w => if w.refresh then w.count else 0
  | _ => 0

/-- Word address `a` falls within the window's extent (R1). -/
def Window.holds (w : Window) (a : Nat) : Bool :=
  decide (w.base ≤ a ∧ a < w.base + w.words)

/-- Two windows overlap when some word address lies inside both extents (R9). -/
def Window.overlaps (v w : Window) : Bool :=
  decide (0 < v.words ∧ 0 < w.words ∧ v.base < w.base + w.words ∧ w.base < v.base + v.words)

/-- The sum of `f` over the slots `l` of the table. -/
def sumSlots (f : Window → Nat) (t : Vector Window 8) (l : List Slot) : Nat :=
  (l.map fun i => f t[i]).sum

/-- The total record count (R1). -/
def totalRecords (t : Vector Window 8) : Nat := sumSlots Window.records t allSlots

/-- N_ref (R1). -/
def refreshTotal (t : Vector Window 8) : Nat := sumSlots Window.refreshRecords t allSlots

/-- The fields of a RECORD slot. -/
def recordAt (t : Vector Window 8) (k : Slot) : Option RecordWindow :=
  match t[k] with
  | .record w => some w
  | _ => none

/-- The fields of a JOURNAL slot. -/
def journalAt (t : Vector Window 8) (k : Slot) : Option JournalWindow :=
  match t[k] with
  | .journal w => some w
  | _ => none

/-! ## Tag bases -/

/-- The sum of N over the RECORD slots below `k` (R3). -/
def tagBaseOf (t : Vector Window 8) (k : Slot) : Nat :=
  sumSlots Window.records t (allSlots.filter fun i => decide (i < k))

/-- The window with its tag base, if it is of a kind that has one, set to `b`. -/
def Window.withTagBase (b : Nat) : Window → Window
  | .record w => .record { w with tagBase := b }
  | w => w

/-- The table with the tag bases of all eight slots recomputed (R3). -/
def recomputeTagBases (t : Vector Window 8) : Vector Window 8 :=
  Vector.ofFn fun k => (t[k]).withTagBase (tagBaseOf t k)

/-- The table with slot `k` replaced as a whole and the tag bases recomputed, together (R10, R11). -/
def replaceSlot (t : Vector Window 8) (k : Slot) (w : Window) : Vector Window 8 :=
  recomputeTagBases (t.set k w)

/-! ## Address mapping -/

/-- Where a word address lies among the windows (R12, R13). -/
inductive Place where
  | outside
  | record (slot : Slot) (w : RecordWindow) (index position : Nat)
  | journal (slot : Slot) (w : JournalWindow) (offset : Nat)
deriving DecidableEq, Repr

/-- The slot whose window holds `a`; defined windows do not overlap, so at most one does (R9). -/
def slotOf (t : Vector Window 8) (a : Nat) : Option Slot := allSlots.find? fun k => (t[k]).holds a

/-- The mapping of a word address to window terms (R12, R13). -/
def placeOf (t : Vector Window 8) (a : Nat) : Place :=
  match slotOf t a with
  | none => .outside
  | some k =>
    match t[k] with
    | .none => .outside
    | .record w => .record k w ((a - w.base) / w.size) ((a - w.base) % w.size)
    | .journal w => .journal k w (a - w.base)

/-- The word position is in the window's volatile set (R12). -/
def RecordWindow.isVolatile (w : RecordWindow) (position : Nat) : Bool := w.volatileSet.getLsbD position

/-- The local address of word position `p` of record `i` (R14). -/
def RecordWindow.wordAddr (w : RecordWindow) (i p : Nat) : Addr := BitVec.ofNat 19 (w.base + i * w.size + p)

/-- The local address of the journal word at offset `f` (R14). -/
def JournalWindow.wordAddr (w : JournalWindow) (f : Nat) : Addr := BitVec.ofNat 19 (w.base + f)

/-! ## The checks of DEFINE_WINDOW -/

/-- The operand fields of DEFINE_WINDOW (R175). -/
structure DefineFields where
  slot        : Nat
  kind        : Nat
  size        : Nat
  stateWord   : Nat
  volatileSet : BitVec 16
  priority    : Nat
  refresh     : Bool
  base        : Nat
  count       : Nat
  length      : Nat
deriving DecidableEq, Repr

/-- Step 3 of R5 for a RECORD window (R6). -/
def DefineFields.recordLegal (f : DefineFields) : Bool :=
  decide (f.size = 4 ∨ f.size = 8 ∨ f.size = 16) &&
  decide (1 ≤ f.count ∧ f.count ≤ 65536) &&
  decide (f.base % f.size = 0) &&
  decide (f.stateWord < f.size) &&
  decide (f.volatileSet >>> f.size = 0) &&
  !f.volatileSet.getLsbD f.stateWord &&
  decide (f.priority ≤ 3)

/-- Step 3 of R5 for a JOURNAL window (R7). -/
def DefineFields.journalLegal (f : DefineFields) : Bool :=
  decide (f.length % 4 = 0 ∧ 4 ≤ f.length ∧ f.length ≤ 8192) &&
  decide (f.base % 4 = 0) &&
  decide (f.priority ≤ 3)

/-- The window the operands describe; its tag base is assigned at completion (R3, R10). -/
def DefineFields.window (f : DefineFields) : Window :=
  if f.kind = 1 then
    .record
      { base := f.base, size := f.size, count := f.count, priority := Fin.ofNat 4 f.priority,
        volatileSet := f.volatileSet, stateWord := f.stateWord, refresh := f.refresh, tagBase := 0 }
  else if f.kind = 2 then
    .journal { base := f.base, length := f.length, priority := Fin.ofNat 4 f.priority }
  else .none

/-- Some slot other than `k` holds a window that overlaps `w` (step 6, R9). -/
def overlapsOther (t : Vector Window 8) (k : Slot) (w : Window) : Bool :=
  allSlots.any fun i => decide (i ≠ k) && (t[i]).overlaps w

/-- The record counts of the slots other than `k`, together (step 7, R9). -/
def otherRecords (t : Vector Window 8) (k : Slot) : Nat :=
  sumSlots Window.records t (allSlots.filter fun i => decide (i ≠ k))

/-- The seven checks of R5 in their order: the slot and the window an accepted command defines, or the
result code of the first check that fails. -/
def checkDefine (role : Role) (t : Vector Window 8) (f : DefineFields) : Except ResultCode (Slot × Window) :=
  if role ≠ .init then .error .wrongRole
  else if h : f.slot < 8 then
    if f.kind ≠ 1 ∧ f.kind ≠ 2 then .error .badArgument
    else if !(if f.kind = 1 then f.recordLegal else f.journalLegal) then .error .badArgument
    else if Config.statusBase ≤ f.base then .error .overlap
    else if Config.statusBase < f.window.base + f.window.words then .error .badArgument
    else if overlapsOther t ⟨f.slot, h⟩ f.window then .error .overlap
    else if f.kind = 1 ∧ Config.tagRoom < otherRecords t ⟨f.slot, h⟩ + f.count then .error .capacity
    else .ok (⟨f.slot, h⟩, f.window)
  else .error .badArgument

/-! ## Geometry -/

/-- The geometry of one slot, as a HELLO carries it (R15, R174). -/
def Window.geometry : Window → Geometry
  | .none => .none
  | .record w =>
    .record (BitVec.ofNat 8 w.size) (BitVec.ofNat 16 (w.count - 1)) w.volatileSet (BitVec.ofNat 8 w.stateWord)
  | .journal w => .journal (BitVec.ofNat 16 w.length)

/-- The geometry of all eight slots (R15). -/
def tableGeometry (t : Vector Window 8) : Vector Geometry 8 := mapSlots Window.geometry t

end Sys2Proof.Machine
end

