-- ==== Sys2Proof/Machine/Operands.lean ====
section
/-! DEFINITION. The command codes and the operand fields of the control page (R164, R175, R176). -/

namespace Sys2Proof.Machine

/-- The unsigned value of the `len` bits of `w` from bit `lo` up. -/
def bitsOf (w : DWord) (lo len : Nat) : Nat := (w.extractLsb' lo len).toNat

/-- The commands of R163. -/
inductive Command where
  | defineWindow | clearWindow | setTiming | start | stop | switchover
  | takeOver | release | resume | resync | queryRecord
deriving DecidableEq, Repr

/-- The code of each command (R175). -/
def Command.code : Command → Byte
  | .defineWindow => 0x01
  | .clearWindow => 0x02
  | .setTiming => 0x03
  | .start => 0x10
  | .stop => 0x11
  | .switchover => 0x12
  | .takeOver => 0x13
  | .release => 0x14
  | .resume => 0x15
  | .resync => 0x20
  | .queryRecord => 0x21

/-- Every command. -/
def allCommands : List Command :=
  [.defineWindow, .clearWindow, .setTiming, .start, .stop, .switchover,
   .takeOver, .release, .resume, .resync, .queryRecord]

/-- The command a code names, if it names one (R176). -/
def commandOf (code : Byte) : Option Command := allCommands.find? fun c => c.code = code

/-- The operand fields of DEFINE_WINDOW in the carried words 1, 2 and 3 (R175). -/
def defineFields (w1 w2 w3 : DWord) : DefineFields where
  slot        := bitsOf w1 0 8
  kind        := bitsOf w1 8 8
  size        := bitsOf w1 16 8
  stateWord   := bitsOf w1 24 8
  volatileSet := w1.extractLsb' 32 16
  priority    := bitsOf w1 48 8
  refresh     := w1.getLsbD 56
  base        := bitsOf w2 0 19
  count       := bitsOf w2 32 32
  length      := bitsOf w3 0 16

/-- A value moved to the nearer edge of lo..hi when it lies outside (R164). -/
def clampTo (lo hi v : Nat) : Nat := if v < lo then lo else if hi < v then hi else v

/-- The liveness period judged against 0, or 10..10,000 (R164). -/
def clampLiveness (v : Nat) : Nat := if v = 0 then 0 else clampTo 10 10000 v

/-- The timing configuration SET_TIMING carries, with its numeric fields clamped, and whether any value was
moved. None when a mode field names no mode (R164, R175). -/
def timingOf (w1 w2 : DWord) : Option (Timing × Bool) :=
  let div := bitsOf w1 0 8
  let h := bitsOf w1 8 16
  let m := bitsOf w1 24 8
  let r := bitsOf w1 32 16
  let l := bitsOf w1 48 16
  let live := bitsOf w2 0 8
  let take := bitsOf w2 8 8
  let mode := bitsOf w2 16 8
  let b := bitsOf w2 24 8
  let d := bitsOf w2 32 16
  if 1 < live ∨ 1 < take ∨ 1 < mode then none
  else
    let t : Timing :=
      { divider := clampTo 0 7 div, heartbeatMs := clampTo 10 1000 h, missLimit := clampTo 2 15 m,
        refreshMs := clampTo 100 65535 r, livenessMs := clampLiveness l,
        livenessRelease := decide (live = 1), takeoverAuto := decide (take = 0),
        syncMode := if mode = 0 then .demand (clampTo 1 255 b) else .paced (clampTo 1 3600 d) }
    let asGiven : Timing :=
      { divider := div, heartbeatMs := h, missLimit := m, refreshMs := r, livenessMs := l,
        livenessRelease := decide (live = 1), takeoverAuto := decide (take = 0),
        syncMode := if mode = 0 then .demand b else .paced d }
    some (t, decide (t ≠ asGiven))

/-- The starting role of START: role code 1 or 3 (R139, R175). -/
def startRoleOf (w1 : DWord) : Option Role :=
  if bitsOf w1 0 8 = 1 then some .standby else if bitsOf w1 0 8 = 3 then some .active else none

/-- The slot number in bits 7:0, if it is 0..7 (R11, R55, R175). -/
def slotOperand (w1 : DWord) : Option Slot :=
  if h : bitsOf w1 0 8 < 8 then some ⟨bitsOf w1 0 8, h⟩ else none

end Sys2Proof.Machine
end

