-- ==== Sys2Proof/Machine/Flags.lean ====
section
/-! DEFINITION. What the part reports: notices and INT_N, the status words, the posting queue, the result
word and the completion of a command (spec chapter 9, R177 to R179). -/

namespace Sys2Proof.Machine

/-! ## Codes -/

/-- Role codes (R174). -/
def roleCode : Role → Nat
  | .init => 0 | .standby => 1 | .takeover => 2 | .active => 3 | .handoff => 4 | .released => 5

/-- The role a code names; a code that names none is taken as code 0 (R172, R174). -/
def roleOf (n : Nat) : Role :=
  match n with
  | 1 => .standby | 2 => .takeover | 3 => .active | 4 => .handoff | 5 => .released | _ => .init

/-- Sync state codes (R174). -/
def syncCode : SyncState → Nat
  | .unsynced => 0 | .syncing => 1 | .inSync => 2

/-- The sync state a code names; a code that names none is taken as code 0 (R172, R174). -/
def syncOf (n : Nat) : SyncState :=
  match n with
  | 1 => .syncing | 2 => .inSync | _ => .unsynced

/-- Unit codes (R174, R178). -/
def unitCode : UnitId → Nat
  | .a => 0 | .b => 1

/-- Link state codes (R178). -/
def linkCode : LinkState → Nat
  | .off => 0 | .train => 1 | .hello => 2 | .up => 3 | .incompatible => 4

/-- Result codes (R177). -/
def resultCode : ResultCode → Nat
  | .ok => 0 | .okClamped => 1 | .wrongRole => 2 | .badArgument => 3 | .overlap => 4 | .capacity => 5
  | .notPaired => 6 | .peerActive => 7 | .timeout => 8 | .linkLost => 9 | .aborted => 10
  | .unknownCommand => 11

/-- Tag state codes (R177). -/
def tagCode : TagState → Nat
  | .clean => 0 | .stale => 1 | .dirty => 2 | .flight => 3 | .flightStale => 4 | .flightDirty => 5

/-- Discard marker codes (R178). -/
def markerCode : DiscardMarker → Nat
  | .none => 0 | .record => 1 | .journalBlock => 2 | .journalWord => 3

/-- The peer view as status word 0 shows it: a LOST view is ISOLATED while CLAIM_IN is asserted and SILENT
while it is released (R134, R178). -/
def viewCode (v : PeerView) (claimIn : Bool) : Nat :=
  match v with
  | .none => 0 | .paired => 1 | .interrupted => 2 | .lost => if claimIn then 3 else 4

/-! ## Notices and INT_N -/

/-- The sixteen notice kinds (R169). -/
inductive Notice where
  | commandDone | roleChanged | linkUp | linkDown | peerLost | syncDone | dualClaim | noActive
  | hostSilent | busClockLost | recordDiscarded | journalDesync | journalRecopied | pageViolation
  | commandOverrun | incompatible
deriving DecidableEq, Repr

/-- The bit of each notice kind (R179). -/
def Notice.bit : Notice → Nat
  | .commandDone => 0 | .roleChanged => 1 | .linkUp => 2 | .linkDown => 3 | .peerLost => 4
  | .syncDone => 5 | .dualClaim => 6 | .noActive => 7 | .hostSilent => 8 | .busClockLost => 9
  | .recordDiscarded => 10 | .journalDesync => 11 | .journalRecopied => 12 | .pageViolation => 13
  | .commandOverrun => 14 | .incompatible => 15

/-- The set that holds the one kind `n` (R179). -/
def Notice.mask (n : Notice) : BitVec 16 := BitVec.twoPow 16 n.bit

/-- Raising a notice makes its kind pending (R169). -/
def raise (n : Notice) (s : State) : State :=
  s.onCsu fun c => { c with pendingSet := c.pendingSet ||| n.mask }

/-- INT_N is high unless some kind is both pending and enabled (R171). -/
def intLevel (c : Csu) : Bool := decide (c.pendingSet &&& c.enableSet = 0)

/-- INT_N driven from the two sets (R171). -/
def driveInt (s : State) : State := s.onCsu fun c => { c with intHigh := intLevel c }

/-- The discard detail replaced by a new report (R165). -/
def reportDiscard (m : DiscardMarker) (k : Slot) (place : Nat) (s : State) : State :=
  raise .recordDiscarded (s.onCsu fun c => { c with discard := ⟨m, k, place⟩ })

/-! ## Views that the status page reports -/

/-- The tag numbered `i`; an unlisted tag is CLEAN with its covered mark set. -/
def tagAt (r : Rts) (i : Nat) : Tag := sparseGet ⟨.clean, true⟩ i r.tags

/-- The number of tags in state `x`, for a state other than CLEAN (R36). -/
def tagTotal (x : TagState) (r : Rts) : Nat := (r.tags.filter fun e => decide (e.2.state = x)).length

/-- The DIRTY total (R36). -/
def dirtyTotal (r : Rts) : Nat := tagTotal .dirty r

/-- The STALE total (R36). -/
def staleTotal (r : Rts) : Nat := tagTotal .stale r

/-- The flight total: the number of tags in the flight family (R36). -/
def flightTotal (r : Rts) : Nat :=
  tagTotal .flight r + tagTotal .flightStale r + tagTotal .flightDirty r

/-- The slots whose journal state is DESYNC, bit k for slot k (R165, R178). -/
def desyncSet (s : State) : BitVec 8 :=
  BitVec.ofBoolListLE (allSlots.map fun k => decide (s.journals.states[k] = some .desync))

/-! ## Status words -/

/-- The value `n` placed at bit `lo` of a status word. -/
def placed (lo n : Nat) : DWord := BitVec.ofNat 64 n <<< lo

/-- The result word as status word 2 lays it out (R177). -/
def ResultWord.word (r : ResultWord) : DWord :=
  placed 0 r.code.toNat ||| placed 8 (resultCode r.result) ||| placed 16 r.field.toNat |||
  placed 63 r.done.toNat

/-- Status word `w` as the state has it (R165, R178). Words 19..63 are zero. -/
def statusWord (s : State) (w : Nat) : DWord :=
  match w with
  | 0 =>
    placed 0 (roleCode s.rc.role) ||| placed 3 s.rc.closing.toNat ||| placed 4 (syncCode s.rc.sync) |||
    placed 8 (linkCode s.link.state) ||| placed 12 (viewCode s.link.view s.rc.claimIn) |||
    placed 16 (unitCode s.rc.unit)
  | 1 => placed 0 s.rc.epoch.toNat ||| placed 32 s.pass.gen.toNat
  | 2 => s.csu.result.word
  | 3 => placed 0 s.csu.pendingSet.toNat
  | 4 => placed 0 (dirtyTotal s.rts) ||| placed 32 (staleTotal s.rts)
  | 5 =>
    placed 0 s.disp.inFlight.length ||| placed 8 s.journals.queue.length ||| placed 32 s.rts.outstanding
  | 6 =>
    placed 0 (markerCode s.csu.discard.marker) ||| placed 8 s.csu.discard.slot.val |||
    placed 16 s.csu.discard.place
  | 7 => placed 0 (desyncSet s).toNat ||| placed 32 s.csu.violation.toNat
  | 8 => placed 0 s.apply.counts[0].toNat
  | 9 => placed 0 s.apply.counts[1].toNat
  | 10 => placed 0 s.apply.counts[2].toNat
  | 11 => placed 0 s.apply.counts[3].toNat
  | 12 => placed 0 s.apply.counts[4].toNat
  | 13 => placed 0 s.apply.counts[5].toNat
  | 14 => placed 0 s.apply.counts[6].toNat
  | 15 => placed 0 s.apply.counts[7].toNat
  | 16 => placed 0 s.bpt.suppressed.toNat
  | 17 => placed 0 s.disp.corrected.toNat ||| placed 32 s.link.crcErrors.toNat
  | 18 => placed 0 s.link.protocolErrors.toNat
  | _ => 0

/-- The state words that become pending when a field of theirs changes, but for the result word, which is
posted when it is formed (R165, R166, R167). -/
def stateWords : List Nat := [0, 1, 3, 6, 7]

/-! ## The posting queue -/

/-- The queue with word `w` pending at value `v`: a word already pending keeps its place (R166). -/
def postInto (w : Nat) (v : DWord) : List Posting → List Posting
  | [] => [⟨w, v⟩]
  | p :: rest => if p.word = w then ⟨w, v⟩ :: rest else p :: postInto w v rest

/-- Status word `w` made pending at value `v` (R166). -/
def post (w : Nat) (v : DWord) (s : State) : State :=
  s.onCsu fun c => { c with postQueue := postInto w v c.postQueue }

/-- The value pending for word `w`, if one is. -/
def pendingValue (w : Nat) (q : List Posting) : Option DWord := (q.find? fun p => p.word = w).map (·.value)

/-- Word `w` needs no posting: its value is the one it has in `before`, and no other value is pending for it. -/
def postingStands (before s : State) (w : Nat) : Bool :=
  decide (statusWord s w = statusWord before w) &&
  (pendingValue w s.csu.postQueue).all fun v => decide (v = statusWord s w)

/-- Every state word of `ws` whose value differs from the one it has in `before`, or from the one a role change of the
step posted, made pending with its new value (R138, R166). -/
def postChanged (before : State) : List Nat → State → State
  | [], s => s
  | w :: ws, s => postChanged before ws (if postingStands before s w then s else post w (statusWord s w) s)

/-- A value of word 2 with DONE set is pending and not yet written (R167). -/
def doneWaits (c : Csu) : Bool :=
  match pendingValue 2 c.postQueue with
  | some v => v.getLsbD 63
  | none => false

/-- A new result word value: into the result hold while a DONE value waits to be written, else into the
posting queue (R167). The word takes its place in the queue when it is formed, before the state words that the close of
the step posts: DESIGN CHOICE, since the manual gives no place among the words of one step (log entry 9). While the DONE
value of an earlier command waits, a STOP that aborts replaces ABORTED in the hold with its own value, as R167 says of later
values, though R162 has ABORTED written first: DESIGN CHOICE (log entry 30). -/
def formResult (r : ResultWord) (s : State) : State :=
  s.onCsu fun c =>
    if doneWaits c then { c with result := r, resultHold := some r.word }
    else { c with result := r, postQueue := postInto 2 r.word c.postQueue }

/-- At intake the result word holds the command code, OK, result field 0 and DONE clear (R159). -/
def intakeResult (code : Byte) (s : State) : State :=
  formResult { code := code, result := .ok, field := 0, done := false } s

/-- The completion of the command with code `code`: its result with DONE set, COMMAND_DONE, and the CSU idle
(R160). -/
def completeWith (code : Byte) (r : ResultCode) (field : Nat) (s : State) : State :=
  (raise .commandDone
    (formResult { code := code, result := r, field := BitVec.ofNat 32 field, done := true } s)).onCsu
      fun c => { c with running := none }

/-- The code of a running command (R175). -/
def Running.code : Running → Byte
  | .define _ _ _ => Command.defineWindow.code
  | .clear _ _ => Command.clearWindow.code
  | .switchover => Command.switchover.code

/-- A running SWITCHOVER completes with `r`; nothing changes while none runs (R148 to R151). -/
def endSwitchover (r : ResultCode) (s : State) : State :=
  if s.csu.running = some .switchover then completeWith Command.switchover.code r 0 s else s

/-! ## Posting ticks -/

/-- The value last made pending for count word `w` (R166). -/
def lastCount (w : Nat) (c : Csu) : DWord := (pendingValue w c.lastCounts).getD 0

/-- The count words of `ws` whose present value differs from the value last made pending for them, made
pending (R166). R166 gives no order among the count words of one posting tick: they enter the queue in the order of `ws`,
which at a tick is ascending word order. DESIGN CHOICE (log entry 9). -/
def postCounts : List Nat → State → State
  | [], s => s
  | w :: ws, s =>
    postCounts ws
      (if statusWord s w = lastCount w s.csu then s
       else (post w (statusWord s w) s).onCsu fun c =>
          { c with lastCounts := postInto w (statusWord s w) c.lastCounts })

end Sys2Proof.Machine
end

