-- ==== Sys2Proof/Machine/Frames.lean ====
section
/-! DEFINITION. The bytes of the cable: byte kinds, lanes, the CRC, the layout of every frame, and the
reading of a received frame (spec sections 5.1, 5.3 and 10.1). -/

namespace Sys2Proof.Machine

/-! ## Byte kinds, lanes and times -/

/-- What a byte on the cable is, by its value and by FRAME (R78, R172). -/
inductive ByteKind where
  | alignmentIdle | alignedIdle | idle | frameFirst | other
deriving DecidableEq, Repr

/-- The kind of a byte from its value and FRAME in its first and second clock periods (R78, R172). -/
def byteKind (v : Byte) (first second : Bool) : ByteKind :=
  if first && second then .frameFirst
  else if first && !second then
    if v = 0x4B then .alignmentIdle else if v = 0xB4 then .alignedIdle else .other
  else if !first && !second then (if v = 0x5A then .idle else .other)
  else .other

/-- A byte on the cable: its value, and FRAME in its first and second clock periods (R78). -/
structure CableByte where
  value  : Byte
  first  : Bool
  second : Bool
deriving DecidableEq, Repr

/-- The alignment idle as it is driven (R78, R172). -/
def alignmentIdleByte : CableByte := ⟨0x4B, true, false⟩

/-- The aligned-idle as it is driven (R78, R172). -/
def alignedIdleByte : CableByte := ⟨0xB4, true, false⟩

/-- The idle byte as it is driven (R78, R172). -/
def idleByte : CableByte := ⟨0x5A, false, false⟩

/-- The bytes of a frame as they are driven: FRAME is high in both clock periods of the first and low for the others
(R78). -/
def framed : List Byte → List CableByte
  | [] => []
  | b :: bs => ⟨b, true, true⟩ :: bs.map fun x => ⟨x, false, false⟩

/-- The bits of a byte on (lane 0, lane 1) at the four clock edges of its two clock periods (R172). -/
def laneBits (v : Byte) : List (Bool × Bool) :=
  [(v.getLsbD 0, v.getLsbD 1), (v.getLsbD 2, v.getLsbD 3), (v.getLsbD 4, v.getLsbD 5),
   (v.getLsbD 6, v.getLsbD 7)]

/-- The byte time in ns at the divider DIV (R77). -/
def byteTimeNs (div : Nat) : Nat := 16 * (div + 1)

/-! ## The CRC (R91) -/

/-- One bit of the reflected CRC register with the generator 0x04C11DB7, which reads 0xEDB88320 from its
least significant bit (R91). -/
def crcBit (c : BitVec 32) : BitVec 32 :=
  if c.getLsbD 0 then (c >>> 1) ^^^ 0xEDB88320 else c >>> 1

/-- One byte, least significant bit first (R91). -/
def crcByte (c : BitVec 32) (b : Byte) : BitVec 32 :=
  crcBit (crcBit (crcBit (crcBit (crcBit (crcBit (crcBit (crcBit (c ^^^ b.setWidth 32))))))))

/-- The CRC of the header and payload bytes (R91). -/
def crc (bytes : List Byte) : BitVec 32 := ~~~ bytes.foldl crcByte (BitVec.allOnes 32)

/-! ## Fields, least significant byte first (R172) -/

/-- The `n` low bytes of a value, least significant first (R172). -/
def toBytes (n : Nat) (v : Nat) : List Byte := (List.range n).map fun k => BitVec.ofNat 8 (v >>> (8 * k))

/-- `n` bytes sent as zero (R172). -/
def zeroBytes (n : Nat) : List Byte := List.replicate n 0

/-- The value of bytes that stand least significant first (R172). -/
def ofBytes (l : List Byte) : Nat := l.foldr (fun b v => b.toNat + 256 * v) 0

/-- `n` bytes of `l` from place `at`, as a value. -/
def fieldAt (l : List Byte) (start n : Nat) : Nat := ofBytes ((l.drop start).take n)

/-! ## Sending -/

/-- The type code of each frame (R173). -/
def typeCode : Frame → Byte
  | .hello _ => 0x01
  | .heartbeat _ => 0x02
  | .ack _ => 0x03
  | .nak _ => 0x04
  | .sequenced f =>
    match f.body with
    | .record _ _ _ => 0x05
    | .tombstone _ _ => 0x06
    | .discard _ _ => 0x07
    | .journalWord _ _ _ _ => 0x08
    | .journalBlock _ _ _ _ _ _ _ => 0x09
    | .syncBegin => 0x0A
    | .syncDone _ => 0x0B
    | .handover _ => 0x0C

/-- The eight header bytes (R173). -/
def headerBytes (type window : Byte) (seq index : BitVec 16) (length flags : Byte) : List Byte :=
  [type, window] ++ toBytes 2 seq.toNat ++ toBytes 2 index.toNat ++ [length, flags]

/-- The slot number as the window byte carries it (R173). -/
def slotByte (k : Slot) : Byte := BitVec.ofNat 8 k.val

/-- The header and payload of a sequenced frame (R173, R174). -/
def seqBytes (f : SeqFrame) : List Byte :=
  match f.body with
  | .record k i ws =>
    headerBytes 0x05 (slotByte k) f.seq i (BitVec.ofNat 8 ws.length) 0 ++
      ws.flatMap fun w => toBytes 8 w.toNat
  | .tombstone k i => headerBytes 0x06 (slotByte k) f.seq i 0 0
  | .discard k i => headerBytes 0x07 (slotByte k) f.seq i 0 0
  | .journalWord k o m w => headerBytes 0x08 (slotByte k) f.seq o m 0 ++ toBytes 8 w.toNat
  | .journalBlock k o l w0 w1 w2 w3 =>
    headerBytes 0x09 (slotByte k) f.seq o 0 (BitVec.ofNat 8 l.toNat) ++ toBytes 8 w0.toNat ++
      toBytes 8 w1.toNat ++ toBytes 8 w2.toNat ++ toBytes 8 w3.toNat
  | .syncBegin => headerBytes 0x0A 0 f.seq 0 0 0
  | .syncDone g => headerBytes 0x0B 0 f.seq g 0 0
  | .handover e => headerBytes 0x0C 0 f.seq 0 0 0 ++ toBytes 4 e.toNat ++ zeroBytes 4

/-- The eight bytes of one geometry entry (R174). -/
def geometryBytes : Geometry → List Byte
  | .none => zeroBytes 8
  | .record s n v k => [1, s] ++ toBytes 2 n.toNat ++ toBytes 2 v.toNat ++ [k, 0]
  | .journal l => [2, 0] ++ toBytes 2 l.toNat ++ zeroBytes 4

/-- The payload of a HELLO (R174). -/
def helloPayload (h : HelloFrame) : List Byte :=
  [BitVec.ofNat 8 (unitCode h.unit), BitVec.ofNat 8 (roleCode h.role), BitVec.ofNat 8 (syncCode h.sync),
    BitVec.ofNat 8 h.seen.toNat] ++ toBytes 4 h.epoch.toNat ++ toBytes 2 h.gen.toNat ++
    zeroBytes 6 ++ allSlots.flatMap fun k => geometryBytes h.geometry[k]

/-- The payload of a HEARTBEAT (R174). -/
def heartbeatPayload (h : HeartbeatFrame) : List Byte :=
  [BitVec.ofNat 8 (roleCode h.role), BitVec.ofNat 8 (syncCode h.sync), 0, 0] ++ toBytes 4 h.epoch.toNat ++
    toBytes 2 h.gen.toNat ++ toBytes 2 h.applied.toNat ++ zeroBytes 4

/-- The header and payload of a frame (R173, R174). -/
def contentBytes : Frame → List Byte
  | .hello h => headerBytes 0x01 0 0 0 0 0 ++ helloPayload h
  | .heartbeat h => headerBytes 0x02 0 0 0 0 0 ++ heartbeatPayload h
  | .ack a => headerBytes 0x03 0 a 0 0 0
  | .nak e => headerBytes 0x04 0 e 0 0 0
  | .sequenced f => seqBytes f

/-- The bytes of a frame on the cable, its CRC last with bits 7:0 first (R91, R172). -/
def frameBytes (f : Frame) : List Byte := contentBytes f ++ toBytes 4 (crc (contentBytes f)).toNat

/-- The bytes of the frame being sent; a frame cut by a go-back goes to its length with its CRC inverted
(R59, R91). -/
def sendingBytes (x : Sending) : List Byte :=
  if x.cut then contentBytes x.frame ++ toBytes 4 (~~~ crc (contentBytes x.frame)).toNat
  else frameBytes x.frame

/-! ## Receiving -/

/-- The number of bytes of a frame from its header, if the header tells it (R88, R89): by type for every
kind but RECORD, and from the length field for RECORD. -/
def lengthOf (l : List Byte) : Option Nat :=
  match fieldAt l 0 1 with
  | 1 => some 92
  | 2 => some 28
  | 3 => some 12
  | 4 => some 12
  | 5 =>
    if fieldAt l 6 1 = 4 ∨ fieldAt l 6 1 = 8 ∨ fieldAt l 6 1 = 16 then some (12 + 8 * fieldAt l 6 1)
    else none
  | 6 => some 12
  | 7 => some 12
  | 8 => some 20
  | 9 => some 44
  | 10 => some 12
  | 11 => some 12
  | 12 => some 20
  | _ => none

/-- The geometry entry at place `start`; a kind that names none is taken as code 0 (R172, R174). All 16 bits of V are
kept, and so compared by R84, those at positions S and above too, which R174 gives no treatment: DESIGN CHOICE (log entry
25). -/
def geometryAt (l : List Byte) (start : Nat) : Geometry :=
  match fieldAt l start 1 with
  | 1 =>
    .record (BitVec.ofNat 8 (fieldAt l (start + 1) 1)) (BitVec.ofNat 16 (fieldAt l (start + 2) 2))
      (BitVec.ofNat 16 (fieldAt l (start + 4) 2)) (BitVec.ofNat 8 (fieldAt l (start + 6) 1))
  | 2 => .journal (BitVec.ofNat 16 (fieldAt l (start + 2) 2))
  | _ => .none

/-- The HELLO of a received frame (R174). -/
def helloAt (l : List Byte) : HelloFrame where
  unit     := if fieldAt l 8 1 = 1 then .b else .a
  role     := roleOf (fieldAt l 9 1)
  sync     := syncOf (fieldAt l 10 1)
  seen     := decide (fieldAt l 11 1 = 1)
  epoch    := BitVec.ofNat 32 (fieldAt l 12 4)
  gen      := BitVec.ofNat 16 (fieldAt l 16 2)
  geometry := Vector.ofFn fun k => geometryAt l (24 + 8 * k.val)

/-- The HEARTBEAT of a received frame (R174). -/
def heartbeatAt (l : List Byte) : HeartbeatFrame where
  role    := roleOf (fieldAt l 8 1)
  sync    := syncOf (fieldAt l 9 1)
  epoch   := BitVec.ofNat 32 (fieldAt l 12 4)
  gen     := BitVec.ofNat 16 (fieldAt l 16 2)
  applied := BitVec.ofNat 16 (fieldAt l 18 2)

/-- The 64-bit word at place `start`. -/
def wordAt (l : List Byte) (start : Nat) : DWord := BitVec.ofNat 64 (fieldAt l start 8)

/-- The slot of the window byte, if it names one (R173). -/
def slotAt (l : List Byte) : Option Slot :=
  if h : fieldAt l 1 1 < 8 then some ⟨fieldAt l 1 1, h⟩ else none

/-- The content of a received sequenced frame whose window byte names slot `k` (R173, R174). -/
def windowBody (l : List Byte) (k : Slot) : SeqBody :=
  let i := BitVec.ofNat 16 (fieldAt l 4 2)
  match fieldAt l 0 1 with
  | 5 => .record k i ((List.range (fieldAt l 6 1)).map fun p => wordAt l (8 + 8 * p))
  | 6 => .tombstone k i
  | 7 => .discard k i
  | 8 => .journalWord k i (BitVec.ofNat 8 (fieldAt l 6 1)) (wordAt l 8)
  | _ =>
    .journalBlock k i (decide (fieldAt l 7 1 % 2 = 1)) (wordAt l 8) (wordAt l 16) (wordAt l 24) (wordAt l 32)

/-- The frame that bytes of the right length carry (R173, R174); none for a window byte that names no
slot. -/
def frameAt (l : List Byte) : Option Frame :=
  let q := BitVec.ofNat 16 (fieldAt l 2 2)
  match fieldAt l 0 1 with
  | 1 => some (.hello (helloAt l))
  | 2 => some (.heartbeat (heartbeatAt l))
  | 3 => some (.ack q)
  | 4 => some (.nak q)
  | 10 => some (.sequenced ⟨q, .syncBegin⟩)
  | 11 => some (.sequenced ⟨q, .syncDone (BitVec.ofNat 16 (fieldAt l 4 2))⟩)
  | 12 => some (.sequenced ⟨q, .handover (BitVec.ofNat 32 (fieldAt l 8 4))⟩)
  | _ => (slotAt l).map fun k => .sequenced ⟨q, windowBody l k⟩

/-- The frame a received frame's bytes carry, if it has the length of its kind, was not ended short, and its
CRC matches (the first two conditions of R90). -/
def parseFrame (l : List Byte) (cutShort : Bool) : Option Frame :=
  if cutShort || decide (lengthOf l ≠ some l.length) then none
  else if fieldAt l (l.length - 4) 4 = (crc (l.take (l.length - 4))).toNat then frameAt l
  else none

/-- The window checks of R90 on a sequenced frame. -/
def namesKnown (t : Vector Window 8) : SeqBody → Bool
  | .record k i ws =>
    match recordAt t k with
    | some w => decide (i.toNat < w.count ∧ ws.length = w.size)
    | none => false
  | .tombstone k i =>
    match recordAt t k with
    | some w => decide (i.toNat < w.count)
    | none => false
  | .discard k i =>
    match recordAt t k with
    | some w => decide (i.toNat < w.count)
    | none => false
  | .journalWord k o _ _ =>
    match journalAt t k with
    | some w => decide (o.toNat < w.length)
    | none => false
  | .journalBlock k o _ _ _ _ _ =>
    match journalAt t k with
    | some w => decide (o.toNat % 4 = 0 ∧ o.toNat + 4 ≤ w.length)
    | none => false
  | .syncBegin => true
  | .syncDone _ => true
  | .handover _ => true

end Sys2Proof.Machine
end

