-- ==== Sys2Proof/Machine/Ecc.lean ====
section
/-! DEFINITION. The check-bit code: an extended Hamming code over 72 bit positions (spec section 2.8,
R33, R34, R180). -/

namespace Sys2Proof.Machine

/-- The code position of data bit `i` (R180). -/
def dataPosition (i : Nat) : Nat :=
  if i = 0 then 3
  else if i < 4 then i + 4
  else if i < 11 then i + 5
  else if i < 26 then i + 6
  else if i < 57 then i + 7
  else i + 8

/-- The parity of the data bits whose code position has bit `j` set. -/
def groupParity (d : DWord) (j : Nat) : Bool :=
  (List.range 64).foldl (fun p i => xor p (d.getLsbD i && (dataPosition i).testBit j)) false

/-- The parity of all 64 data bits. -/
def dataParity (d : DWord) : Bool :=
  (List.range 64).foldl (fun p i => xor p (d.getLsbD i)) false

/-- The seven check bits of positions 1, 2, 4, …, 64 for the data `d`, on check lines 0..6 (R33, R180). -/
def hammingBits (d : DWord) : BitVec 7 :=
  BitVec.ofBoolListLE [groupParity d 0, groupParity d 1, groupParity d 2, groupParity d 3,
    groupParity d 4, groupParity d 5, groupParity d 6]

/-- The parity of seven bits. -/
def parity7 (c : BitVec 7) : Bool :=
  xor (c.getLsbD 0) (xor (c.getLsbD 1) (xor (c.getLsbD 2) (xor (c.getLsbD 3) (xor (c.getLsbD 4)
    (xor (c.getLsbD 5) (c.getLsbD 6))))))

/-- The eight check bits the part generates for the data `d`; line 7 carries the overall parity bit, which
makes the number of ones of all 72 bits even (R33, R180). -/
def checkBits (d : DWord) : Byte :=
  BitVec.ofBool (xor (dataParity d) (parity7 (hammingBits d))) ++ hammingBits d

/-- A word as the part writes it: its data with generated check bits (R33). -/
def codedWord (d : DWord) : MWord := ⟨d, checkBits d⟩

/-- The syndrome of a word as read. Bit j is the parity of positions 1..71 whose number has bit j set: the
data positions among them and the one check position 2^j (R34). -/
def syndrome (w : MWord) : BitVec 7 := hammingBits w.data ^^^ w.check.setWidth 7

/-- The parity of all 72 bits as read, true for odd (R34). -/
def overallOdd (w : MWord) : Bool :=
  xor (dataParity w.data) (xor (parity7 (w.check.setWidth 7)) (w.check.getLsbD 7))

/-- The data bit that stands at code position `p`, if `p` is a data position (R180). -/
def dataBitAt (p : Nat) : Option Nat := (List.range 64).find? fun i => dataPosition i = p

/-- The class of a word as read and the data handed on (the table of R34). -/
def classify (w : MWord) : ReadClass × DWord :=
  if overallOdd w then
    if 72 ≤ (syndrome w).toNat then (.uncorrectable, w.data)
    else
      match dataBitAt (syndrome w).toNat with
      | some i => (.corrected, w.data ^^^ BitVec.twoPow 64 i)
      | none => (.corrected, w.data)
  else if syndrome w = 0 then (.good, w.data)
  else (.uncorrectable, w.data)

end Sys2Proof.Machine
end

