-- ==== Sys2Proof/Machine/Tags.lean ====
section
/-! DEFINITION. The Record Tag Store: the events of one tag, the search, visits, covered marks and the bulk
events (spec chapter 3). -/

namespace Sys2Proof.Machine

/-! ## The tag table of R37 -/

/-- The events that move one tag (R37). -/
inductive TagEvent where
  | structuralCapture | volatileCapture | selection | readoutRestart
  | acknowledgement | goBack | refreshVisit | syncVisit
deriving DecidableEq, Repr

/-- A structural capture (R38). -/
def afterStructural : TagState → TagState
  | .clean => .dirty | .stale => .dirty | .dirty => .dirty
  | .flight => .flightDirty | .flightStale => .flightDirty | .flightDirty => .flightDirty

/-- A volatile capture (R39). -/
def afterVolatile : TagState → TagState
  | .clean => .stale | .flight => .flightStale | x => x

/-- A selection (R40). -/
def afterSelection : TagState → TagState
  | .dirty => .flight | x => x

/-- A readout restart (R41). -/
def afterRestart : TagState → TagState
  | .flightStale => .flight | .flightDirty => .flight | x => x

/-- An acknowledgement (R42). -/
def afterAck : TagState → TagState
  | .flight => .clean | .flightStale => .stale | .flightDirty => .dirty | x => x

/-- A go-back (R43). -/
def afterGoBack : TagState → TagState
  | .flight => .dirty | .flightStale => .dirty | .flightDirty => .dirty | x => x

/-- A refresh visit (R44). -/
def afterRefresh : TagState → TagState
  | .stale => .dirty | .flightStale => .flightDirty | x => x

/-- A sync visit of a tag whose covered mark is clear (R45). -/
def afterSyncVisit : TagState → TagState
  | .clean => .dirty | .stale => .dirty | x => x

/-- The tag after one event: the table of R37, and the covered mark that an acknowledgement sets (R42). -/
def tagAfter (e : TagEvent) (t : Tag) : Tag :=
  match e with
  | .structuralCapture => { t with state := afterStructural t.state }
  | .volatileCapture => { t with state := afterVolatile t.state }
  | .selection => { t with state := afterSelection t.state }
  | .readoutRestart => { t with state := afterRestart t.state }
  | .acknowledgement => { state := afterAck t.state, covered := true }
  | .goBack => { t with state := afterGoBack t.state }
  | .refreshVisit => { t with state := afterRefresh t.state }
  | .syncVisit => if t.covered then t else { t with state := afterSyncVisit t.state }

/-! ## Tags in the store -/

/-- The store with tag `i` set to `t`. -/
def setTag (i : Nat) (t : Tag) (r : Rts) : Rts := { r with tags := sparseSet ⟨.clean, true⟩ i t r.tags }

/-- One event on the tag numbered `i`. -/
def tagEvent (e : TagEvent) (i : Nat) (s : State) : State :=
  s.onRts fun r => setTag i (tagAfter e (tagAt r i)) r

/-- The tag number of record `i` of the window in slot `k` (R2, R12); 0 for a slot that is not RECORD. -/
def tagNumber (t : Vector Window 8) (k : Slot) (i : Nat) : Nat :=
  match recordAt t k with
  | some w => w.tagBase + i
  | none => 0

/-- One event on the tag of record `i` of slot `k`, if the slot is of kind RECORD (R37). -/
def recordEvent (e : TagEvent) (k : Slot) (i : Nat) (s : State) : State :=
  match recordAt s.windows k with
  | some w => tagEvent e (w.tagBase + i) s
  | none => s

/-- The acknowledgement of a record's frame: its tag event, and U less 1 if a full sync is in progress and
the mark was clear (R42, R52, R53). -/
def recordAcked (k : Slot) (i : Nat) (s : State) : State :=
  match recordAt s.windows k with
  | some w =>
    let wasClear := !(tagAt s.rts (w.tagBase + i)).covered
    let s' := tagEvent .acknowledgement (w.tagBase + i) s
    if wasClear && decide (s.pass.phase ≠ .none) then
      s'.onRts fun r => { r with outstanding := r.outstanding - 1 }
    else s'
  | none => s

/-! ## Dirty maps, counts and the search -/

/-- The dirty map entry of record `i` of a window: set exactly when the record's tag is DIRTY (R36). -/
def dirtyEntry (r : Rts) (w : RecordWindow) (i : Nat) : Bool :=
  decide ((tagAt r (w.tagBase + i)).state = .dirty)

/-- The number of a window's tags in state `x`, for a state other than CLEAN: its DIRTY count and its STALE
count (R36). -/
def windowCount (x : TagState) (r : Rts) (w : RecordWindow) : Nat :=
  (r.tags.filter fun e =>
    decide (e.2.state = x ∧ w.tagBase ≤ e.1 ∧ e.1 < w.tagBase + w.count)).length

/-- The indices a search examines: from the pointer to N − 1, then from 0 to the pointer less 1 (R50). -/
def searchOrder (pointer count : Nat) : List Nat :=
  (List.range count).drop pointer ++ (List.range count).take pointer

/-- The search of R50 in the window of slot `k`. -/
def searchWindow (s : State) (k : Slot) : Option Nat :=
  match recordAt s.windows k with
  | some w => (searchOrder s.rts.pointers[k] w.count).find? (dirtyEntry s.rts w)
  | none => none

/-- The backlog count: the DIRTY total plus the flight total (R36). -/
def backlog (r : Rts) : Nat := dirtyTotal r + flightTotal r

/-! ## Bulk events -/

/-- The bulk clear: every tag in use CLEAN with its mark set, every pointer and U at 0; the maps, counts
and totals follow the tags (R48). -/
def bulkClear (s : State) : State :=
  s.onRts fun _ => { tags := [], pointers := Vector.replicate 8 0, outstanding := 0 }

/-- The handoff sweep: the refresh-visit transition of every tag in use at once (R49). -/
def handoffSweep (s : State) : State :=
  s.onRts fun r => { r with tags := r.tags.map fun e => (e.1, tagAfter .refreshVisit e.2) }

/-- The start of a full sync in the store: every mark of a tag in use clear, U at the total record count
(R51). -/
def clearMarks (s : State) : State :=
  s.onRts fun r =>
    { r with
      tags := (List.range (totalRecords s.windows)).map fun i => (i, { tagAt r i with covered := false })
      outstanding := totalRecords s.windows }

/-- The tags of the range lo..lo+n−1 set CLEAN with their marks set (R10). -/
def freshTags (lo n : Nat) (r : Rts) : Rts :=
  { r with tags := r.tags.filter fun e => decide (e.1 < lo ∨ lo + n ≤ e.1) }

end Sys2Proof.Machine
end

