-- ==== Sys2Proof/Machine/Journal.lean ====
section
/-! DEFINITION. The Journal Queue and the journal window states (spec section 4.4). -/

namespace Sys2Proof.Machine

/-- The journal state of slot `k` set to `x`. -/
def setJournalState (k : Slot) (x : Option JournalState) (s : State) : State :=
  s.onJournals fun j => { j with states := j.states.set k x }

/-- The journal state is COPYING (R73). -/
def isCopying : Option JournalState → Bool
  | some (.copying _) => true
  | _ => false

/-- Writes to a window in this state are queued: IN_STEP or COPYING (R25, R73). -/
def queuesWrites : Option JournalState → Bool
  | some .inStep => true
  | some (.copying _) => true
  | _ => false

/-- The window of slot `k` enters DESYNC. JOURNAL_DESYNC is raised on entry from IN_STEP or COPYING, and a
copy is abandoned with its position (R73). -/
def enterDesync (k : Slot) (s : State) : State :=
  if queuesWrites s.journals.states[k] then raise .journalDesync (setJournalState k (some .desync) s) else s

/-- Every journal window of `l` enters DESYNC (R73). -/
def desyncSlots : List Slot → State → State
  | [], s => s
  | k :: ks, s => desyncSlots ks (enterDesync k s)

/-- The Journal Queue emptied, sent entries and unsent alike, and every journal window DESYNC (R69, R70,
R73). -/
def emptyJournals (s : State) : State :=
  desyncSlots allSlots (s.onJournals fun j => { j with queue := [] })

/-- An unsent entry appended at the tail of the Journal Queue (R71, R72). -/
def appendEntry (e : JournalEntry) (s : State) : State :=
  s.onJournals fun j => { j with queue := j.queue ++ [⟨e, false⟩] }

/-- The Journal Queue holds fewer than 128 entries (R72). -/
def journalRoomLeft (s : State) : Bool := decide (s.journals.queue.length < Config.journalRoom)

/-- The entry the Journal Queue holds first, gone: its in-flight entry has been acknowledged (R72). -/
def dropFront (s : State) : State := s.onJournals fun j => { j with queue := j.queue.tail }

/-- The first `n` entries of the queue sent and the others unsent. The sent entries always form the front of
the queue, one for each JOURNAL entry of the in-flight list (R71). -/
def markSent : Nat → List QueuedEntry → List QueuedEntry
  | _, [] => []
  | 0, q :: qs => { q with sent := false } :: markSent 0 qs
  | n + 1, q :: qs => { q with sent := true } :: markSent n qs

/-- The head of the queue for R58: its first unsent entry (R71). -/
def firstUnsent (q : List QueuedEntry) : Option JournalEntry := (q.find? fun e => !e.sent).map (·.entry)

/-- The slot an entry names. -/
def JournalEntry.slot : JournalEntry → Slot
  | .word k _ _ _ => k
  | .block k _ _ => k

/-- The entry is a BLOCK entry of slot `k`. -/
def JournalEntry.isBlockOf (k : Slot) : JournalEntry → Bool
  | .word _ _ _ _ => false
  | .block k' _ _ => decide (k' = k)

/-- The Journal Queue holds a BLOCK entry of slot `k` (R74). -/
def holdsBlock (k : Slot) (q : List QueuedEntry) : Bool := q.any fun e => e.entry.isBlockOf k

/-- The copy of slot `k` has a block left to insert: its position, the length and the window (R75). -/
def copyLeft (s : State) (k : Slot) : Option Nat :=
  match s.journals.states[k], journalAt s.windows k with
  | some (.copying pos), some w => if pos < w.length then some pos else none
  | _, _ => none

/-- The lowest-numbered COPYING window whose copy position is below its L (R75). -/
def copyCandidate (s : State) : Option Slot := allSlots.find? fun k => (copyLeft s k).isSome

/-- One BLOCK entry of slot `k` at `pos` inserted and the copy position advanced by 4; copy-last is set when
the offset is L − 4 (R75). -/
def insertBlock (k : Slot) (pos length : Nat) (s : State) : State :=
  setJournalState k (some (.copying (pos + 4)))
    (appendEntry (.block k pos (decide (pos + 4 = length))) s)

/-- The start of a full sync: every IN_STEP window becomes COPYING from 0, and a COPYING window goes on as it
stands (R74, R120). -/
def copyInStep (s : State) : State :=
  s.onJournals fun j =>
    { j with states := mapSlots (fun x => if x = some .inStep then some (.copying 0) else x) j.states }

/-- The acknowledgement of a copy-last block: a COPYING window becomes IN_STEP (R76). -/
def copyAcked (k : Slot) (s : State) : State :=
  if isCopying s.journals.states[k] then setJournalState k (some .inStep) s else s

/-- No journal window is DESYNC or COPYING (R126). -/
def journalsInStep (s : State) : Bool :=
  allSlots.all fun k => decide (s.journals.states[k] = none ∨ s.journals.states[k] = some .inStep)

end Sys2Proof.Machine
end

