-- ==== Sys2Proof/Machine/Dispatcher.lean ====
section
/-! DEFINITION. The Dispatcher: the sending condition, the choice and the start of items, readout slots,
acknowledgement, go-back and the emptyings (spec chapter 4). -/

namespace Sys2Proof.Machine

/-! ## Readout slots -/

/-- The readout slot `r` of the Dispatcher set to `x`. -/
def setReadout (r : Fin 4) (x : Option Readout) (d : Dispatcher) : Dispatcher :=
  { d with readouts := d.readouts.set r x }

/-- The lowest-numbered free readout slot (R60). -/
def freeReadout (d : Dispatcher) : Option (Fin 4) :=
  ([0, 1, 2, 3] : List (Fin 4)).find? fun r => d.readouts[r].isNone

/-- The readout an in-flight entry holds. -/
def readoutOf (d : Dispatcher) (e : InFlight) : Option Readout :=
  match e.readout with
  | some r => d.readouts[r]
  | none => none

/-- The entry holds a readout slot that is still reading words (R61, R64). -/
def stillReading (d : Dispatcher) (e : InFlight) : Bool :=
  match readoutOf d e with
  | some r => r.reading
  | none => false

/-- The entry whose readout the arbiter's readout class serves: the earliest-selected one still reading words
(R60). Entries are selected in sequence order, so it is the first of the list. -/
def readingEntry (d : Dispatcher) : Option InFlight := d.inFlight.find? (stillReading d)

/-- The word positions a record readout reads, in its order: K first, then the others ascending (R61). -/
def readOrder (w : RecordWindow) : List Nat :=
  w.stateWord :: (List.range w.size).filter fun p => decide (p ≠ w.stateWord)

/-- The word `p` of a record among the words read in the order of R61. -/
def readPosition (w : RecordWindow) (words : List (DWord × ReadClass)) (p : Nat) : DWord :=
  ((words[if p = w.stateWord then 0 else if p < w.stateWord then p + 1 else p]?).map (·.1)).getD 0

/-- The words of a record in position order, from the words read in the order of R61. -/
def recordWords (w : RecordWindow) (words : List (DWord × ReadClass)) : List DWord :=
  (List.range w.size).map (readPosition w words)

/-- The address of the next word of an occupied readout slot (R14, R61, R64). -/
def readoutAddr (t : Vector Window 8) (r : Readout) : Option Addr :=
  match r.item with
  | .record k i =>
    match recordAt t k with
    | some w => (readOrder w)[r.words.length]?.map (w.wordAddr i)
    | none => none
  | .block k f => (journalAt t k).map fun w => w.wordAddr (f + r.words.length)

/-! ## The sending condition -/

/-- The parts of the sending condition that R74 asks for: all but the count of in-flight entries and the
readout slot (R57). -/
def mayCopy (s : State) : Bool :=
  decide (s.link.state = .up ∧ s.link.view = .paired ∧ s.link.peer.role = .standby) &&
  decide (s.rc.role = .active ∨ s.rc.role = .handoff) && !s.disp.seqClosed

/-- The sending condition, less the readout slot, which R58 asks of the item chosen (R57). -/
def sendingCondition (s : State) : Bool :=
  mayCopy s && decide (s.disp.inFlight.length < Config.listRoom)

/-- Every part of the sending condition other than the sequence-closed flag holds, and the flag is set (R69). -/
def closedRetrainDue (s : State) : Bool :=
  s.disp.seqClosed && sendingCondition (s.onDisp fun d => { d with seqClosed := false })

/-! ## Choosing an item -/

/-- The next item to start (R58). -/
inductive Choice where
  | control (item : ControlItem)
  | journal (entry : JournalEntry)
  | record (slot : Slot) (index : Nat)
deriving DecidableEq, Repr

/-- The armed control item that goes first (R58). -/
def armedControl (s : State) : Option ControlItem :=
  if s.disp.syncBeginArm then some .syncBegin
  else if s.disp.syncDoneArm then some (.syncDone s.pass.gen)
  else if s.disp.handoverArm then some (.handover s.rc.epoch)
  else none

/-- The slots in ascending order after `k`, wrapping once (R58). -/
def slotsAfter (k : Slot) : List Slot :=
  (allSlots.filter fun i => decide (k < i)) ++ allSlots.filter fun i => decide (i ≤ k)

/-- The head of the Journal Queue, if it is unsent and its window has priority `p` (R58). -/
def journalCandidate (s : State) (p : Fin 4) : Option Choice :=
  match firstUnsent s.journals.queue with
  | some e =>
    match journalAt s.windows e.slot with
    | some w => if w.priority = p then some (.journal e) else none
    | none => none
  | none => none

/-- Slot `k` is a RECORD window of priority `p` with a DIRTY record (R58). -/
def recordReady (s : State) (p : Fin 4) (k : Slot) : Bool :=
  match recordAt s.windows k with
  | some w => decide (w.priority = p) && (searchWindow s k).isSome
  | none => false

/-- The record to select at priority `p`: the first window after the round-robin pointer with a DIRTY
record, and the record its search finds (R50, R58). -/
def recordCandidate (s : State) (p : Fin 4) : Option Choice :=
  match (slotsAfter s.disp.roundRobin[p]).find? (recordReady s p) with
  | some k => (searchWindow s k).map (.record k)
  | none => none

/-- The candidate of priority `p` (R58). -/
def priorityCandidate (s : State) (p : Fin 4) : Option Choice :=
  (journalCandidate s p).or (recordCandidate s p)

/-- The first candidate in the order of R58. -/
def firstCandidate (s : State) : Option Choice :=
  match armedControl s with
  | some c => some (.control c)
  | none =>
    (priorityCandidate s 3).or <| (priorityCandidate s 2).or <|
      (priorityCandidate s 1).or <| priorityCandidate s 0

/-- The item needs a readout slot (R57). -/
def Choice.needsReadout : Choice → Bool
  | .control _ => false
  | .journal (.word _ _ _ _) => false
  | .journal (.block _ _ _) => true
  | .record _ _ => true

/-- The item to start now: the first candidate, while the sending condition holds and a readout slot is free
if the item needs one (R57, R58). -/
def chooseItem (s : State) : Option Choice :=
  if sendingCondition s then
    match firstCandidate s with
    | some c => if c.needsReadout && (freeReadout s.disp).isNone then none else some c
    | none => none
  else none

/-! ## Starting an item -/

/-- An entry with the next sequence number joins the in-flight list, the number advances, and the ack timer
starts if the list was empty (R59, R65, R68). -/
def joinInFlight (item : Item) (readout : Option (Fin 4)) (s : State) : State :=
  (s.onDisp fun d =>
    { d with
      inFlight := d.inFlight ++ [⟨s.link.nextSeq, item, none, false, readout⟩]
      ackTimer := if d.inFlight.isEmpty then some 0 else d.ackTimer }).onLink
    fun l => { l with nextSeq := l.nextSeq + 1 }

/-- A readout slot given to the item that starts now (R60, R63). -/
def occupy (r : Fin 4) (item : ReadItem) (s : State) : State :=
  s.onDisp (setReadout r (some ⟨s.link.nextSeq, item, true, [], 0⟩))

/-- The arm of a control item cleared at its start (R58). -/
def clearArm (c : ControlItem) (d : Dispatcher) : Dispatcher :=
  match c with
  | .syncBegin => { d with syncBeginArm := false }
  | .syncDone _ => { d with syncDoneArm := false }
  | .handover _ => { d with handoverArm := false }

/-- The awaited SYNC_DONE becomes the item started with sequence number `q` (R117). -/
def awaitedStarted (c : ControlItem) (q : SeqNo) (p : PassEngine) : PassEngine :=
  match c with
  | .syncDone _ => if p.awaited = .armed then { p with awaited := .started q } else p
  | _ => p

/-- The number of JOURNAL entries in the in-flight list. -/
def journalsInFlight (l : List InFlight) : Nat :=
  (l.filter fun e => match e.item with | .journal _ => true | _ => false).length

/-- The sent marks of the Journal Queue brought in step with the in-flight list (R71). -/
def remarkSent (s : State) : State :=
  s.onJournals fun j => { j with queue := markSent (journalsInFlight s.disp.inFlight) j.queue }

/-- The start of a chosen item: its in-flight entry and sequence number, its readout slot, the tag event of
a selection, and the search and round-robin pointers (R40, R50, R57 to R60). -/
def startItem (c : Choice) (s : State) : State :=
  match c with
  | .control i =>
    joinInFlight (.control i) none
      ((s.onDisp (clearArm i)).onPass (awaitedStarted i s.link.nextSeq))
  | .journal e =>
    match e with
    | .word _ _ _ _ => remarkSent (joinInFlight (.journal e) none s)
    | .block k f _ =>
      match freeReadout s.disp with
      | some r => remarkSent (joinInFlight (.journal e) (some r) (occupy r (.block k f) s))
      | none => s
  | .record k i =>
    match freeReadout s.disp, recordAt s.windows k with
    | some r, some w =>
      joinInFlight (.record k i) (some r)
        (occupy r (.record k i)
          (((tagEvent .selection (w.tagBase + i) s).onRts fun t =>
            { t with pointers := t.pointers.set k ((i + 1) % w.count) }).onDisp fun d =>
              { d with roundRobin := d.roundRobin.set w.priority k }))
    | _, _ => s

/-! ## Readout -/

/-- The in-flight entry with sequence number `q` changed by `f`. -/
def onEntry (q : SeqNo) (f : InFlight → InFlight) (d : Dispatcher) : Dispatcher :=
  { d with inFlight := d.inFlight.map fun e => if e.seq = q then f e else e }

/-- The corrected count, which counts every word the part reads with class CORRECTED (R62). -/
def countCorrected (c : ReadClass) (s : State) : State :=
  if c = .corrected then s.onDisp fun d => { d with corrected := saturatingInc d.corrected } else s

/-- The frame form a record readout reaches with the words read so far, if it ends with the last of them:
DISCARD at an UNCORRECTABLE word, TOMBSTONE at a zero K, RECORD at the last of the S words (R61, R62). -/
def formReached (size : Nat) (words : List (DWord × ReadClass)) : Option RecordForm :=
  match words.getLast? with
  | none => none
  | some (d, c) =>
    if c = .uncorrectable then some .discard
    else if words.length = 1 ∧ d = 0 then some .tombstone
    else if words.length = size then some .record
    else none

/-- One word taken into the readout slot `r` that serves entry `e` (R61, R62, R64). -/
def takeWord (e : InFlight) (r : Fin 4) (ro : Readout) (c : ReadClass) (d : DWord) (s : State) : State :=
  let words := ro.words ++ [(d, c)]
  match ro.item with
  | .record k i =>
    match recordAt s.windows k with
    | none => s
    | some w =>
      let form := formReached w.size words
      let s' := s.onDisp fun dd =>
        setReadout r (some { ro with words := words, reading := form.isNone })
          (onEntry e.seq (fun x => { x with form := form }) dd)
      if c = .uncorrectable then reportDiscard .record k i s' else s'
  | .block k f =>
    let s' := s.onDisp (setReadout r (some { ro with words := words, reading := decide (words.length ≠ 4) }))
    if c = .uncorrectable then reportDiscard .journalBlock k f s' else s'

/-- The readout class's word read: the next word of the earliest-selected slot still reading is read,
classified and taken (R60 to R62, R64). -/
def readoutWord (s : State) : State :=
  match readingEntry s.disp with
  | none => s
  | some e =>
    match e.readout, readoutOf s.disp e with
    | some r, some ro =>
      match readoutAddr s.windows ro with
      | none => s
      | some a =>
        let cd := classify (memRead s.mem a)
        takeWord e r ro cd.1 cd.2 (countCorrected cd.1 s)
    | _, _ => s

/-- A structural capture restarts the readout of its record while it is still reading words and its restart
count is below 3: the words are dropped and the tag returns to FLIGHT (R41, R63). -/
def restartReadout (k : Slot) (i : Nat) (s : State) : State :=
  match s.disp.inFlight.find? fun e => decide (e.item = .record k i) && stillReading s.disp e with
  | none => s
  | some e =>
    match e.readout, readoutOf s.disp e with
    | some r, some ro =>
      if ro.restarts < 3 then
        recordEvent .readoutRestart k i
          (s.onDisp (setReadout r (some { ro with words := [], restarts := ro.restarts + 1 })))
      else s
    | _, _ => s

/-- A capture event of the Bus Pass-Through (R22): structural or volatile by the word position, with the
restart a structural capture may cause (R38, R39, R63). -/
def capture (k : Slot) (w : RecordWindow) (i position : Nat) (s : State) : State :=
  if w.isVolatile position then tagEvent .volatileCapture (w.tagBase + i) s
  else restartReadout k i (tagEvent .structuralCapture (w.tagBase + i) s)

/-! ## Frames of in-flight entries -/

/-- The item's frame is ready (R59). -/
def frameReady (d : Dispatcher) (e : InFlight) : Bool :=
  match e.item with
  | .control _ => true
  | .journal (.word _ _ _ _) => true
  | .journal (.block _ _ _) => e.readout.isSome && !stillReading d e
  | .record _ _ => e.form.isSome

/-- Word `n` of the block a readout slot holds. -/
def blockWord (d : Dispatcher) (e : InFlight) (n : Nat) : DWord :=
  match readoutOf d e with
  | some ro => (ro.words[n]?.map (·.1)).getD 0
  | none => 0

/-- The frame of an in-flight entry whose frame is ready (R59, R61, R64). -/
def frameBody (s : State) (e : InFlight) : SeqBody :=
  match e.item with
  | .control .syncBegin => .syncBegin
  | .control (.syncDone g) => .syncDone g
  | .control (.handover x) => .handover x
  | .journal (.word k f d m) => .journalWord k (BitVec.ofNat 16 f) m d
  | .journal (.block k f l) =>
    .journalBlock k (BitVec.ofNat 16 f) l (blockWord s.disp e 0) (blockWord s.disp e 1)
      (blockWord s.disp e 2) (blockWord s.disp e 3)
  | .record k i =>
    match e.form, recordAt s.windows k with
    | some .record, some w =>
      .record k (BitVec.ofNat 16 i) (recordWords w (((readoutOf s.disp e).map (·.words)).getD []))
    | some .tombstone, _ => .tombstone k (BitVec.ofNat 16 i)
    | _, _ => .discard k (BitVec.ofNat 16 i)

/-- The oldest in-flight entry whose frame has not been transmitted (R56). -/
def nextToSend (d : Dispatcher) : Option InFlight := d.inFlight.find? fun e => !e.transmitted

/-- The entry marked transmitted and its readout slot freed, as its frame's transmission starts (R59, R60). -/
def markTransmitted (e : InFlight) (d : Dispatcher) : Dispatcher :=
  let d' := onEntry e.seq (fun x => { x with transmitted := true, readout := none }) d
  match e.readout with
  | some r => setReadout r none d'
  | none => d'

/-! ## Acknowledgement -/

/-- The number of transmitted entries of the in-flight list (R66). -/
def transmittedCount (d : Dispatcher) : Nat := (d.inFlight.filter (·.transmitted)).length

/-- The oldest entry's sequence number, or the next sequence number if the list is empty (R66). -/
def oldestSeq (s : State) : SeqNo :=
  match s.disp.inFlight with
  | e :: _ => e.seq
  | [] => s.link.nextSeq

/-- The ack timer after entries have left: restarted if entries remain, stopped if none does (R66 to R68). -/
def restartAckTimer (s : State) : State :=
  s.onDisp fun d => { d with ackTimer := if d.inFlight.isEmpty then none else some 0 }

/-! ## Go-back -/

/-- The control arm of an item set again (R67). -/
def setArm (c : ControlItem) (d : Dispatcher) : Dispatcher :=
  match c with
  | .syncBegin => { d with syncBeginArm := true }
  | .syncDone _ => { d with syncDoneArm := true }
  | .handover _ => { d with handoverArm := true }

/-- The awaited SYNC_DONE is armed again when its entry with sequence number `q` is gone back (R67, R126). -/
def awaitedGoneBack (q : SeqNo) (p : PassEngine) : PassEngine :=
  if p.awaited = .started q then { p with awaited := .armed } else p

/-- The readout slot an entry holds, abandoned (R60). -/
def abandonReadout (e : InFlight) (d : Dispatcher) : Dispatcher :=
  match e.readout with
  | some r => setReadout r none d
  | none => d

/-- What a go-back does for one removed entry (R67). The sent marks of the Journal Queue follow in
`remarkSent`. A SYNC_DONE that is not awaited, started before a RESYNC, is armed again by R67 like any other and goes
behind the new SYNC_BEGIN by R58, while U is above 0: DESIGN CHOICE between R67 and R126 (log entry 22). -/
def entryGoneBack (e : InFlight) (s : State) : State :=
  let s' := s.onDisp (abandonReadout e)
  match e.item with
  | .record k i => recordEvent .goBack k i s'
  | .journal _ => s'
  | .control c => (s'.onDisp (setArm c)).onPass (awaitedGoneBack e.seq)

/-- What a go-back does for the removed entries, one after another (R67). -/
def entriesGoneBack : List InFlight → State → State
  | [], s => s
  | e :: es, s => entriesGoneBack es (entryGoneBack e s)

/-- A sequenced frame that is being sent and whose entry is among the removed ones ends with its CRC inverted (R59).
`Link.sending` holds the frame last started until the next frame boundary. Its last byte may have left by the go-back, and
then it has been sent whole: a free value tells (log entry 14). -/
def cutSending (removed : List InFlight) (s : State) : State :=
  match s.link.sending with
  | some ⟨.sequenced f, _⟩ =>
    if removed.any fun e => decide (e.seq = f.seq) then
      s.draw.onLink fun l =>
        { l with sending := if Config.lastByteLeft s.draws then none else some ⟨.sequenced f, true⟩ }
    else s
  | _ => s

/-- A NAK carrying `e` (R67). -/
def goBackFrom (e : SeqNo) (s : State) : State :=
  let n := seqAhead (oldestSeq s) e
  if n < transmittedCount s.disp then
    let removed := s.disp.inFlight.drop n
    let s1 := s.onDisp fun d => { d with inFlight := d.inFlight.take n }
    let s2 := remarkSent (entriesGoneBack removed s1)
    restartAckTimer ((cutSending removed s2).onLink fun l => { l with nextSeq := e })
  else s

/-! ## Emptyings -/

/-- The Dispatcher with every entry, readout slot and arm gone and the ack timer stopped; the
sequence-closed flag is set if an entry was removed while the link is UP (R69, R70). -/
def clearDispatcher (s : State) : State :=
  s.onDisp fun d =>
    { d with
      readouts := Vector.replicate 4 none
      inFlight := []
      syncBeginArm := false
      syncDoneArm := false
      handoverArm := false
      ackTimer := none
      seqClosed := d.seqClosed || (!d.inFlight.isEmpty && decide (s.link.state = .up)) }

/-- The go-back events of the RECORD entries of `l` (R43, R69). -/
def recordsGoneBack : List InFlight → State → State
  | [], s => s
  | e :: es, s =>
    recordsGoneBack es (match e.item with
      | .record k i => recordEvent .goBack k i s
      | _ => s)

/-- The emptying of R69: the sequence stream to the peer has ended, and records in flight go back. -/
def emptyGoingBack (s : State) : State :=
  emptyJournals (clearDispatcher (recordsGoneBack s.disp.inFlight s))

/-- The emptying of R70, in one step with a bulk clear and without go-back events. -/
def emptyCleared (s : State) : State := emptyJournals (clearDispatcher s)

end Sys2Proof.Machine
end

