-- ==== Sys2Proof/Machine/Passes.lean ====
section
/-! DEFINITION. The Pass Engine: the pairing decision, the full-sync pass, completion and abort, the refresh
pass and the pacing arithmetic (spec chapter 7). -/

namespace Sys2Proof.Machine

/-! ## Pacing (R123) -/

/-- The offset in ticks of the visit of step `i` in a pass of `n` steps over `t` ticks (R123). -/
def visitOffset (n t i : Nat) : Nat :=
  let q := t / n
  let r := t - q * n
  if i ≤ r then i * (q + 1) else r * (q + 1) + (i - r) * q

/-- T of the refresh pass (R123). -/
def refreshTicks (s : State) : Nat := 1000 * s.csu.timing.refreshMs

/-- T of the PACED full sync (R123). -/
def syncTicks (seconds : Nat) : Nat := 1000000 * seconds

/-! ## Stopping (R128, R131) -/

/-- The sync abort: phase NONE, position and clock 0, nothing awaited, U at 0; G as it stands (R128). With no
sync in progress the state it sets holds already. -/
def abortSync (s : State) : State :=
  (s.onPass fun p => { p with phase := .none, syncPos := 0, syncClock := 0, awaited := .none }).onRts
    fun r => { r with outstanding := 0 }

/-- The refresh pass stopped (R131). -/
def stopRefresh (s : State) : State :=
  s.onPass fun p => { p with refreshing := false, refreshPos := 0, refreshClock := 0 }

/-- The refresh pass begun at step 0, on a part whose N_ref is at least 1 (R130). -/
def beginRefresh (s : State) : State :=
  s.onPass fun p =>
    { p with refreshing := decide (1 ≤ refreshTotal s.windows), refreshPos := 0, refreshClock := 0 }

/-! ## Full sync (R120, R126, R127, R129) -/

/-- The start of a full sync but for the arming of SYNC_BEGIN (R120, R129). -/
def restartSync (s : State) : State :=
  (copyInStep (clearMarks s)).onPass fun p =>
    { p with phase := .passing, syncPos := 0, syncClock := 0, awaited := .none }

/-- SYNC_BEGIN armed (R120). -/
def armSyncBegin (s : State) : State := s.onDisp fun d => { d with syncBeginArm := true }

/-- The start of a full sync (R120). -/
def startSync (s : State) : State := armSyncBegin (restartSync s)

/-- SYNC_BEGIN is in flight (R129). -/
def syncBeginInFlight (d : Dispatcher) : Bool :=
  d.inFlight.any fun e => decide (e.item = .control .syncBegin)

/-- An accepted RESYNC (R129). In COMPLETING with SYNC_BEGIN still in flight and SYNC_DONE started behind it, the table of R129
arms no SYNC_BEGIN, while its next paragraph speaks of a new SYNC_BEGIN behind that SYNC_DONE: none is armed. DESIGN CHOICE
(log entry 27). -/
def resyncNow (s : State) : State :=
  match s.pass.phase with
  | .none => startSync s
  | .passing => restartSync (if syncBeginInFlight s.disp then s else armSyncBegin s)
  | .completing =>
    restartSync
      ((if syncBeginInFlight s.disp then s else armSyncBegin s).onDisp fun d =>
        { d with syncDoneArm := false })

/-- The condition of R126: U is 0 and no journal window is DESYNC or COPYING, in phase PASSING. -/
def syncComplete (s : State) : Bool :=
  decide (s.pass.phase = .passing ∧ s.rts.outstanding = 0) && journalsInStep s

/-- The completion of a full sync (R126). -/
def completeSync (s : State) : State :=
  (s.onPass fun p => { p with gen := p.gen + 1, phase := .completing, awaited := .armed }).onDisp
    fun d => { d with syncDoneArm := true }

/-- The acknowledgement of a SYNC_DONE item with sequence number `q` (R127). -/
def syncDoneAcked (q : SeqNo) (s : State) : State :=
  if s.pass.phase = .completing ∧ s.pass.awaited = .started q then
    raise .syncDone
      ((s.onPass fun p => { p with phase := .none, awaited := .none }).onRts fun r =>
        { r with outstanding := 0 })
  else s

/-! ## Visits (R121, R122, R124, R130) -/

/-- The sync pass has a step to take: the phase is PASSING and steps are left (R121). -/
def syncStepsLeft (s : State) : Bool :=
  decide (s.pass.phase = .passing ∧ s.pass.syncPos < totalRecords s.windows)

/-- A step of the sync pass may be taken now (R122, R124). In PACED mode the command itself says that the
clock has reached the step's offset (log entry 5). -/
def syncVisitDue (s : State) : Bool :=
  syncStepsLeft s &&
  match s.csu.timing.syncMode with
  | .demand b => decide (backlog s.rts < b)
  | .paced _ => true

/-- One step of the sync pass: a sync visit of the tag at the position, and the position advanced (R121).
In PACED mode the clock stands at the offset of the step or above (R124). -/
def syncStep (s : State) : State :=
  let i := s.pass.syncPos
  let clock :=
    match s.csu.timing.syncMode with
    | .demand _ => s.pass.syncClock
    | .paced d => max s.pass.syncClock (visitOffset (totalRecords s.windows) (syncTicks d) i)
  (tagEvent .syncVisit i s).onPass fun p => { p with syncPos := i + 1, syncClock := clock }

/-- The record at place `i` among the refresh-enabled windows of the slots `l` (R130). -/
def refreshPlace (t : Vector Window 8) : List Slot → Nat → Option (Slot × Nat)
  | [], _ => none
  | k :: ks, i =>
    let n := (t[k]).refreshRecords
    if i < n then some (k, i) else refreshPlace t ks (i - n)

/-- The refresh pass has a step to take (R130). -/
def refreshStepsLeft (s : State) : Bool :=
  s.pass.refreshing && decide (s.pass.refreshPos < refreshTotal s.windows)

/-- One step of the refresh pass: a refresh visit of the record at its place (R130). -/
def refreshStep (s : State) : State :=
  let i := s.pass.refreshPos
  let s' :=
    match refreshPlace s.windows allSlots i with
    | some (k, j) => recordEvent .refreshVisit k j s
    | none => s
  s'.onPass fun p =>
    { p with
      refreshPos := i + 1
      refreshClock := max p.refreshClock (visitOffset (refreshTotal s.windows) (refreshTicks s) i) }

/-- The refresh pass has made every visit, so that the pass ends when its clock reaches T (R130). -/
def refreshEnds (s : State) : Bool :=
  s.pass.refreshing && decide (refreshTotal s.windows ≤ s.pass.refreshPos)

/-- The next refresh pass begun at step 0 with its clock at 0 (R130). -/
def nextRefresh (s : State) : State := s.onPass fun p => { p with refreshPos := 0, refreshClock := 0 }

/-! ## The pairing decision (R118, R119) -/

/-- The peer is paired in role STANDBY with a part in ACTIVE or HANDOFF (R118). -/
def decisionHolds (s : State) : Bool :=
  decide (s.link.state = .up ∧ s.link.peer.role = .standby) &&
  decide (s.rc.role = .active ∨ s.rc.role = .handoff)

/-- The three conditions of RESUME (R119). -/
def resumes (s : State) : Bool :=
  decide (s.link.peer.sync = .inSync ∧ s.link.peer.epoch = s.rc.epoch ∧ s.link.peer.gen = s.pass.gen)

/-- The pairing decision: RESUME, which changes nothing, or FULL SYNC; in either case the refresh pass starts
at step 0 (R119). -/
def pairingDecision (s : State) : State := beginRefresh (if resumes s then s else startSync s)

/-- The pairing decision where its conditions hold at an event of R118. -/
def decideIfPaired (s : State) : State := if decisionHolds s then pairingDecision s else s

end Sys2Proof.Machine
end

