-- ==== Sys2Proof/Machine/Roles.lean ====
section
/-! DEFINITION. The Role Controller: role changes and their effects, takeover, handoff, two claims, release
and the host monitors (spec chapter 8). -/

namespace Sys2Proof.Machine

/-! ## The role and the claim -/

/-- CLAIM_OUT is driven exactly in these roles (R134). -/
def claims (r : Role) : Bool := decide (r = .active ∨ r = .handoff)

/-- The dual-claim timer runs while both claims hold; it starts at 0 when both begin to hold and stops when
either ceases (R152). -/
def dualAfter (both : Bool) (d : DualTimer) : DualTimer :=
  if both then (match d with | .stopped => .running 0 | x => x) else .stopped

/-- The dual-claim timer brought in step with the role and CLAIM_IN (R152). -/
def settleDual (c : RoleController) : RoleController :=
  { c with dual := dualAfter (claims c.role && c.claimIn) c.dual }

/-- Status word 0 posted as it stands (R138, R166), at its place within the step: DESIGN CHOICE (log entry 9). -/
def postRole (s : State) : State := post 0 (statusWord s 0) s

/-- A change of role: CLAIM_OUT and the dual-claim timer follow in the same step, ROLE_CHANGED is raised and status
word 0 is posted (R134, R138, R152). -/
def setRole (r : Role) (s : State) : State :=
  postRole (raise .roleChanged (s.onRc fun c => settleDual { c with role := r, claimOut := claims r }))

/-- The seen flag is set once a peer HELLO has passed its check and the apply queue is empty (R83). -/
def settleSeen (s : State) : State :=
  if s.link.state = .hello ∧ s.link.helloPassed = true ∧ s.apply.queue = [] then
    s.onLink fun l => { l with seen := true }
  else s

/-- An apply-queue entry covers word address `a` (R28). -/
def coversAddr (t : Vector Window 8) (a : Nat) (b : SeqBody) : Bool :=
  match placeOf t a with
  | .outside => false
  | .record k _ i _ =>
    match b with
    | .record k' i' _ => decide (k' = k ∧ i'.toNat = i)
    | .tombstone k' i' => decide (k' = k ∧ i'.toNat = i)
    | .discard k' i' => decide (k' = k ∧ i'.toNat = i)
    | _ => false
  | .journal k _ o =>
    match b with
    | .journalWord k' o' _ _ => decide (k' = k ∧ o'.toNat = o)
    | .journalBlock k' o' _ _ _ _ _ => decide (k' = k ∧ o'.toNat ≤ o ∧ o < o'.toNat + 4)
    | _ => false

/-- The apply queue holds an entry that covers word address `a` (R28, R29). -/
def covered (s : State) (a : Addr) : Bool := s.apply.queue.any fun f => coversAddr s.windows a.toNat f.body

/-- A held read is released into the arbiter in the step in which the last entry that covers it leaves the queue: from
then on it waits for its memory cycle alone, and a later entry does not hold it again. `before` is the state before the
departure, `s` the state after it (R29, R30). -/
def freeRead (before s : State) : State :=
  match s.bpt.held with
  | .read a =>
    if covered before a && !covered s a then s.onBpt fun b => { b with held := .port ⟨false, a, 0, 0, 0⟩ } else s
  | _ => s

/-- The apply queue emptied without applying: A stays, no effect of an entry is taken, and a held read is released (R29,
R114). The seen flag that waited for an empty queue in HELLO may follow (R83). -/
def emptyApply (s : State) : State :=
  settleSeen (freeRead s (s.onApply fun a => { a with queue := [], written := 0, merged := none }))

/-- E takes the peer record's E if that is greater (R137). -/
def adoptEpoch (s : State) : State := s.onRc fun c => { c with epoch := maxEpoch c.epoch s.link.peer.epoch }

/-- The closing sub-state cleared and the handoff timer stopped (R149 to R151). -/
def leaveHandoff (s : State) : State := s.onRc fun c => { c with closing := false, handoff := none }

/-- What promotion, demotion, entry to RELEASED and STOP do alike: the bulk clear, the Dispatcher's
emptying, the sync abort and the refresh stop (R48, R70, R128, R131, R138). -/
def clearReplication (s : State) : State := stopRefresh (abortSync (emptyCleared (bulkClear s)))

/-! ## Promotion and takeover -/

/-- Promotion from TAKEOVER to ACTIVE (R138, R145), with the pairing decision it may bring (R118). The decision reads the
peer record as it stands, also where TAKE_OVER has been accepted on both units before a HEARTBEAT has replaced STANDBY in
it: there R118 and R145 make the decision, and R182, which takes the record to show TAKEOVER or ACTIVE, makes none.
DESIGN CHOICE (log entry 26). -/
def promote (s : State) : State :=
  decideIfPaired
    (clearReplication
      (setRole .active
        (s.onRc fun c => { c with epoch := maxEpoch c.epoch s.link.peer.epoch + 1 })))

/-- A TAKEOVER part is promoted once its apply queue is empty (R144). -/
def promoteIfDrained (s : State) : State :=
  if s.rc.role = .takeover ∧ s.apply.queue = [] then promote s else s

/-- The move to TAKEOVER; a part whose apply queue is empty is promoted at once (R144). -/
def takeOverNow (s : State) : State := promoteIfDrained (setRole .takeover s)

/-- The condition of R141, judged at the events that can make it true. -/
def peerSilent (s : State) : Bool :=
  decide (s.rc.role = .standby ∧ s.link.view = .lost) && s.csu.timing.takeoverAuto && !s.rc.claimIn

/-- Takeover after peer loss (R141). -/
def judgeLost (s : State) : State := if peerSilent s then takeOverNow s else s

/-- The condition of the no-active rule (R142). -/
def noActive (s : State) : Bool :=
  decide (s.rc.role = .standby ∧ s.link.view = .paired) &&
  decide (s.link.peer.role ≠ .active ∧ s.link.peer.role ≠ .handoff ∧ s.link.peer.role ≠ .takeover)

/-- The local unit is the winner by the table of R142. A peer whose record shows INIT has no row in it, though the condition
holds, and neither unit wins: DESIGN CHOICE (log entry 29). -/
def localWins (s : State) : Bool :=
  match s.link.peer.role with
  | .released => true
  | .standby =>
    if s.rc.sync = .inSync ∧ s.link.peer.sync ≠ .inSync then true
    else if s.rc.sync ≠ .inSync ∧ s.link.peer.sync = .inSync then false
    else decide (s.rc.unit = .a)
  | _ => false

/-- The no-active rule is judged in this step: its condition became true, or one of the values it reads
changed while it held; not at the entry to STANDBY that ends a closing sub-state (R142). -/
def noActiveJudged (before s : State) : Bool :=
  noActive s && !before.rc.closing &&
  (!noActive before ||
    decide (before.link.peer.role ≠ s.link.peer.role ∨ before.link.peer.sync ≠ s.link.peer.sync ∨
      before.rc.sync ≠ s.rc.sync))

/-- The no-active rule: the winner takes over in AUTO mode and raises NO_ACTIVE in NOTIFY mode (R142). -/
def judgeNoActive (before s : State) : State :=
  if noActiveJudged before s && localWins s then
    if s.csu.timing.takeoverAuto then takeOverNow s else raise .noActive s
  else s

/-- The takeover conditions judged once, at the end of a step that began in `before`, with what the step leaves (R141, R142):
DEDUCED (log entry 11). -/
def judgeTakeover (before s : State) : State := judgeNoActive before (judgeLost s)

/-! ## Demotion -/

/-- Demotion of an ACTIVE or HANDOFF part to STANDBY with the sync state `x` (R138). -/
def demote (x : SyncState) (s : State) : State :=
  (emptyApply (clearReplication (setRole .standby (leaveHandoff s)))).onRc fun c => { c with sync := x }

/-- The success of a handoff in its closing sub-state (R148). -/
def handoffSucceeds (s : State) : State :=
  endSwitchover .ok
    (demote .inSync
      (s.onRc fun c =>
        { c with
          epoch := if s.link.peer.role = .active then s.link.peer.epoch
                   else maxEpoch c.epoch s.link.peer.epoch + 1 }))

/-- A handoff ended by a return to ACTIVE, which is no promotion (R149, R150). -/
def handoffReturns (r : ResultCode) (s : State) : State :=
  endSwitchover r (setRole .active (leaveHandoff s))

/-- The handoff has converged (R147). -/
def converged (s : State) : Bool :=
  decide (dirtyTotal s.rts = 0 ∧ flightTotal s.rts = 0 ∧ s.journals.queue = [] ∧ s.pass.phase = .none) &&
  journalsInStep s

/-- Convergence, judged in HANDOFF before closing: the closing sub-state is entered, the handoff timer stops
and HANDOVER is armed (R147). -/
def judgeConverged (s : State) : State :=
  if s.rc.role = .handoff ∧ s.rc.closing = false ∧ converged s then
    (s.onRc fun c => { c with closing := true, handoff := none }).onDisp fun d =>
      { d with handoverArm := true }
  else s

/-- Demotion of unit B after a dual claim; a running SWITCHOVER ends with PEER_ACTIVE (R151, R152). -/
def demoteDual (s : State) : State := endSwitchover .peerActive (adoptEpoch (demote .unsynced s))

/-- A dual claim detected: DUAL_CLAIM is raised and unit B is demoted (R152). -/
def dualClaimDetected (s : State) : State :=
  if s.rc.unit = .b then demoteDual (raise .dualClaim s) else raise .dualClaim s

/-! ## Release and the monitors -/

/-- The roles from which RELEASED is entered (R154). -/
def releasable (r : Role) : Bool :=
  decide (r = .standby ∨ r = .takeover ∨ r = .active ∨ r = .handoff)

/-- Entry to RELEASED (R138, R151, R154). -/
def enterReleased (s : State) : State :=
  endSwitchover .aborted
    ((emptyApply (clearReplication (setRole .released (leaveHandoff s)))).onRc fun c =>
      { c with sync := .unsynced })

/-- Entry to RELEASED from a role that permits it (R154). -/
def releaseIfHeld (s : State) : State := if releasable s.rc.role then enterReleased s else s

/-- The liveness timer started at 0, unless L is 0 (R156). -/
def startLiveness (s : State) : State :=
  s.onRc fun c => { c with liveness := if s.csu.timing.livenessMs = 0 then none else some 0 }

/-! ## The peer record (R94) -/

/-- What the Role Controller, the Dispatcher and the Pass Engine do when the peer's role changes from `old`
while the link is UP (R69, R94, R118, R148, R150). In closing a peer in HANDOFF or INIT, which no rule names, changes
nothing of the handoff: DEDUCED (log entry 12). -/
def peerRoleChanged (old : Role) (s : State) : State :=
  let new := s.link.peer.role
  if s.rc.role = .handoff ∧ s.rc.closing = true ∧ (new = .takeover ∨ new = .active) then handoffSucceeds s
  else if old = .standby ∧ new ≠ .standby then
    let s' := stopRefresh (abortSync (emptyGoingBack s))
    if s.rc.role = .handoff ∧ (s.rc.closing = false ∨ new = .released) then handoffReturns .notPaired s'
    else s'
  else if old ≠ .standby ∧ new = .standby then decideIfPaired s
  else if s.rc.role = .handoff ∧ s.rc.closing = true ∧ old ≠ .released ∧ new = .released then
    handoffReturns .notPaired s
  else s

/-- An update of the peer record (R94), with the adoption of a greater E in STANDBY (R137) and, while the
link is UP, what a change of the peer's role brings. -/
def updatePeer (p : PeerRecord) (s : State) : State :=
  let s1 := s.onLink fun l => { l with peer := p }
  let s2 := if s.rc.role = .standby then adoptEpoch s1 else s1
  if s.link.state = .up then peerRoleChanged s.link.peer.role s2 else s2

end Sys2Proof.Machine
end

