-- ==== Sys2Proof/Machine/Link.lean ====
section
/-! DEFINITION. The Pairing Link: link states, alignment, HELLO, the receiver, heartbeats and peer
supervision (spec chapter 5). -/

namespace Sys2Proof.Machine

/-! ## Leaving UP and entering TRAIN -/

/-- The link's own part of the departure from UP (R86). -/
def dropLink (view : PeerView) (s : State) : State :=
  raise .linkDown
    (s.onLink fun l =>
      { l with
        state := .train, view := view, ackWaiting := false, nakWaiting := false, seen := false,
        sending := none })

/-- The departure from UP for TRAIN and what it brings in the same step (R69, R86, R128, R131, R150). A
closing sub-state ends by demotion, whose emptying is made once and delivers no go-back (R70). -/
def leaveUp (view : PeerView) (s : State) : State :=
  let s1 := dropLink view s
  if s.rc.role = .handoff ∧ s.rc.closing = true then endSwitchover .linkLost (demote .unsynced s1)
  else
    let s2 := stopRefresh (abortSync (emptyGoingBack s1))
    if s.rc.role = .handoff then handoffReturns .linkLost s2 else s2

/-- The entry to TRAIN: the interface reset begins, alignment, a frame being received and HELLO progress are
discarded, and the divider is taken from the timing configuration (R59, R77, R80). -/
def enterTrain (s : State) : State :=
  s.onLink fun l =>
    { l with
      state := .train, divider := s.csu.timing.divider, resetTicks := some 0, alignCount := 0,
      aligned := false, strayBytes := 0, incoming := none, seen := false, helloPassed := false,
      helloSeenIn := false, helloSeenOut := false, helloWaiting := false, sending := none }

/-- A move to TRAIN from HELLO, UP or INCOMPATIBLE (R80, R86). -/
def toTrain (view : PeerView) (s : State) : State :=
  if s.link.state = .up then enterTrain (leaveUp view s) else enterTrain s

/-- A loss of alignment, or the peer's training pattern, in a state that watches for it (R82); in TRAIN a
loss only sets the alignment count back (R80, R81). -/
def loseAlignment (s : State) : State :=
  match s.link.state with
  | .off => s
  | .train => s.onLink fun l => { l with alignCount := 0, aligned := false, strayBytes := 0, incoming := none }
  | _ => toTrain .interrupted s

/-- A retrain request: it acts while the link is UP and is dropped in any other state (R87). -/
def retrain (s : State) : State := if s.link.state = .up then toTrain .interrupted s else s

/-! ## HELLO and UP -/

/-- The entry to HELLO: a HELLO is waiting at once (R83). -/
def enterHello (s : State) : State :=
  s.onLink fun l =>
    { l with
      state := .hello, helloWaiting := true, helloClock := 0, helloAge := 0, helloPassed := false,
      helloSeenIn := false, helloSeenOut := false, seen := false, strayBytes := 0 }

/-- The move to UP (R85). -/
def goUp (s : State) : State :=
  decideIfPaired
    ((((raise .linkUp s).onLink fun l =>
      { l with
        state := .up, nextSeq := 0, expected := 0, nakPending := false, ackWaiting := false,
        nakWaiting := false, view := .paired, helloWaiting := false }).onApply fun a =>
      { a with applied := 0, lastAck := 0 }).onDisp fun d => { d with seqClosed := false })

/-- The move to UP where both of its events have happened in this HELLO state (R85). -/
def tryUp (s : State) : State :=
  if s.link.state = .hello ∧ s.link.helloSeenIn = true ∧ s.link.helloSeenOut = true then goUp s else s

/-- The compatibility check of a HELLO (R84). -/
def compatible (h : HelloFrame) (s : State) : Bool :=
  decide (h.geometry = tableGeometry s.windows ∧ h.unit ≠ s.rc.unit)

/-- The peer record a HELLO carries (R84, R94). -/
def helloRecord (h : HelloFrame) : PeerRecord := ⟨h.role, h.sync, h.epoch, h.gen⟩

/-- The peer record a HEARTBEAT carries (R94). -/
def heartbeatRecord (h : HeartbeatFrame) : PeerRecord := ⟨h.role, h.sync, h.epoch, h.gen⟩

/-- The failure of the check: INCOMPATIBLE, in which the transmitter sends idle bytes only (R84). A HELLO being sent gives way
to them at once, where R56 lets a frame once started be sent whole: DESIGN CHOICE (log entry 28). -/
def goIncompatible (s : State) : State :=
  raise .incompatible
    (s.onLink fun l => { l with state := .incompatible, helloWaiting := false, sending := none })

/-- A HELLO shows a claiming peer to a claiming part: a dual claim is detected (R152). -/
def judgeHelloClaim (h : HelloFrame) (s : State) : State :=
  if claims h.role && claims s.rc.role then dualClaimDetected s else s

/-- A valid HELLO taken in state HELLO (R83 to R85, R152). -/
def helloInHello (h : HelloFrame) (s : State) : State :=
  if compatible h s then
    let s1 := updatePeer (helloRecord h) s
    let s2 := s1.onLink fun l =>
      { l with helloPassed := true, helloSeenIn := l.helloSeenIn || h.seen }
    tryUp (settleSeen (judgeHelloClaim h s2))
  else judgeHelloClaim h (goIncompatible s)

/-- A valid HELLO taken in state UP: it is entered and not checked (R84, R152). -/
def helloInUp (h : HelloFrame) (s : State) : State := judgeHelloClaim h (updatePeer (helloRecord h) s)

/-! ## The receiver -/

/-- The receiver delimits and checks frames: in every state but OFF, and in TRAIN once aligned (R81, R92). -/
def checksFrames (l : Link) : Bool :=
  match l.state with
  | .off => false
  | .train => l.aligned
  | _ => true

/-- The first byte of a frame ends a run of stray bytes, and it ends short a frame whose length is not complete, which
is invalid (R81, R82, R89, R90). -/
def endShort (l : Link) : Link :=
  match l.incoming with
  | some _ => { l with incoming := none, crcErrors := saturatingInc l.crcErrors, strayBytes := 0 }
  | none => { l with strayBytes := 0 }

/-- The heartbeat period has lasted H: this is the instant of the boundary at which it ends (R99). -/
def boundaryDue (s : State) : Bool := reached s.link.periodClock (1000 * s.csu.timing.heartbeatMs)

/-- A valid frame marked for the period that it arrives in: the period that runs, or, at the instant of the boundary that
ends it (`due`), the one that begins there (R99, R100, R102). -/
def markPeriod (due : Bool) (l : Link) : Link :=
  if due then { l with frameAtBoundary := true } else { l with frameInPeriod := true }

/-- A valid frame, from its first byte to its check, counts for supervision in the period in which its check ends (R89,
R100). The instant of a boundary that is due and not yet taken lies in the period that begins there, whichever of the frame
and the boundary is taken first (R99, R102): DEDUCED, log entry 32. -/
def countFrame (s : State) : State := s.onLink fun l => markPeriod (boundaryDue s) (endShort l)

/-- An invalid frame, from its first byte to its check, is dropped and counted (R89, R90). -/
def dropInvalid (s : State) : State :=
  s.onLink fun l => { endShort l with crcErrors := saturatingInc (endShort l).crcErrors }

/-- The bytes of a frame that arrive where no frame is checked: in TRAIN they are none of the training bytes and set the
alignment count to 0 (R79, R81). -/
def passFrame (s : State) : State :=
  if s.link.state = .train then s.onLink fun l => { l with alignCount := 0 } else s

/-- A valid HELLO by the link state at its arrival (R81, R84, R92). -/
def takeHello (h : HelloFrame) (s : State) : State :=
  let s1 := countFrame s
  match s.link.state with
  | .train => helloInHello h (enterHello s1)
  | .hello => helloInHello h s1
  | .up => helloInUp h s1
  | _ => s1

/-- A gap: one NAK while NAK-pending is clear (R96). -/
def meetGap (s : State) : State :=
  if s.link.nakPending then s else s.onLink fun l => { l with nakPending := true, nakWaiting := true }

/-- The expected frame accepted: appended at the tail of the apply queue (R95). -/
def acceptFrame (f : SeqFrame) (s : State) : State :=
  (s.onApply fun a => { a with queue := a.queue ++ [f] }).onLink fun l =>
    { l with expected := l.expected + 1, nakPending := false, nakWaiting := false }

/-- The judgement of a valid sequenced frame in UP on a STANDBY part, but for the effects of an entry that
becomes the head (R95 to R98). -/
def judgeSequenced (f : SeqFrame) (s : State) : State :=
  if f.seq = s.link.expected then
    if s.apply.queue.length < Config.listRoom then acceptFrame f s
    else meetGap (s.onLink fun l => { l with protocolErrors := saturatingInc l.protocolErrors })
  else if seqBefore f.seq s.link.expected then s.onLink fun l => { l with ackWaiting := true }
  else if seqBefore s.link.expected f.seq then meetGap s
  else s

/-- One byte that is neither the first byte of a frame nor part of one (R81, R82). The training byte that makes the receiver
aligned completes the alignment and no more, also where it is itself an aligned-idle: only an aligned-idle behind it moves
the link to HELLO. DESIGN CHOICE (log entry 31), since R81 has one arrive "since it became aligned". -/
def receiveByte (k : ByteKind) (s : State) : State :=
  match s.link.state with
  | .off => s
  | .train =>
    if s.link.aligned then
      match k with
      | .alignedIdle => enterHello s
      | .other =>
        if s.link.strayBytes = 3 then loseAlignment s
        else s.onLink fun l => { l with strayBytes := l.strayBytes + 1 }
      | _ => s.onLink fun l => { l with strayBytes := 0 }
    else if k = .alignmentIdle ∨ k = .alignedIdle then
      s.onLink fun l =>
        { l with alignCount := l.alignCount + 1, aligned := decide (l.alignCount + 1 = 64), strayBytes := 0 }
    else s.onLink fun l => { l with alignCount := 0 }
  | _ =>
    match k with
    | .alignmentIdle => loseAlignment s
    | .other =>
      if s.link.strayBytes = 3 then loseAlignment s
      else s.onLink fun l => { l with strayBytes := l.strayBytes + 1 }
    | _ => s.onLink fun l => { l with strayBytes := 0 }

/-! ## Applied sequences from the peer -/

/-- The acknowledgement of the oldest in-flight entry, which has just left the list (R66). -/
def entryAcked (e : InFlight) (s : State) : State :=
  match e.item with
  | .record k i => recordAcked k i s
  | .journal (.word _ _ _ _) => dropFront s
  | .journal (.block k _ l) => if l then copyAcked k (dropFront s) else dropFront s
  | .control .syncBegin => s
  | .control (.syncDone _) => syncDoneAcked e.seq s
  | .control (.handover _) =>
    if s.rc.role = .handoff ∧ s.rc.closing = true then handoffSucceeds s else s

/-- The `n` oldest entries acknowledged, each whole before the next (R66). A readout slot still held by one
goes with it (R60). -/
def acknowledge : Nat → State → State
  | 0, s => s
  | n + 1, s =>
    match s.disp.inFlight with
    | [] => s
    | e :: rest =>
      acknowledge n (entryAcked e (s.onDisp fun d => abandonReadout e { d with inFlight := rest }))

/-- An applied sequence A from the peer resolved against the in-flight list (R66). -/
def resolveApplied (a : SeqNo) (s : State) : State :=
  let n := seqAhead (oldestSeq s) a
  if 1 ≤ n ∧ n ≤ transmittedCount s.disp then judgeConverged (restartAckTimer (acknowledge n s))
  else if n = 0 then s
  else if 1 ≤ seqAhead a (oldestSeq s) ∧ seqAhead a (oldestSeq s) ≤ 32767 then s
  else s.onLink fun l => { l with protocolErrors := saturatingInc l.protocolErrors }

/-- The update of the peer record by a HEARTBEAT, with the takeover conditions judged at it (R94, R142). -/
def enterHeartbeat (h : HeartbeatFrame) (s : State) : State := judgeTakeover s (updatePeer (heartbeatRecord h) s)

/-- A valid HEARTBEAT in UP: its record and its A, in the order the command names (R94, R128). -/
def takeHeartbeat (h : HeartbeatFrame) (ackFirst : Bool) (s : State) : State :=
  if s.link.state = .up then
    if ackFirst then enterHeartbeat h (resolveApplied h.applied s)
    else resolveApplied h.applied (enterHeartbeat h s)
  else s

/-! ## Supervision -/

/-- The peer view becomes LOST: PEER_LOST, and a link that was UP leaves UP in the same step (R101). -/
def losePeer (s : State) : State :=
  let s1 := raise .peerLost s
  if s.link.state = .up then toTrain .lost s1 else s1.onLink fun l => { l with view := .lost }

/-- The miss counter after a period boundary (R100). -/
def missAfter (l : Link) (limit : Nat) : Nat :=
  if l.frameInPeriod then 0 else if l.missCount < limit then l.missCount + 1 else l.missCount

/-- A heartbeat period boundary, whatever the link state: a boundary has passed since the last HEARTBEAT, which is sent
in UP only (R56, R99 to R101). A frame that arrived at this instant counts for the period that begins here (R102). -/
def periodBoundary (s : State) : State :=
  let limit := s.csu.timing.missLimit
  let m := missAfter s.link limit
  let s1 := s.onLink fun l =>
    { l with
      missCount := m, frameInPeriod := l.frameAtBoundary, frameAtBoundary := false, periodClock := some 0,
      heartbeatWaiting := true }
  if m = limit ∧ s.link.missCount < limit ∧ s.link.view ≠ .lost then judgeLost (losePeer s1) else s1

/-! ## The transmitter -/

/-- The HELLO the part sends, as its values stand (R83). -/
def localHello (s : State) : HelloFrame where
  unit     := s.rc.unit
  role     := s.rc.role
  sync     := s.rc.sync
  epoch    := s.rc.epoch
  gen      := s.pass.gen
  seen     := s.link.seen
  geometry := tableGeometry s.windows

/-- The HEARTBEAT the part sends, as its values stand (R99). -/
def localHeartbeat (s : State) : HeartbeatFrame where
  role    := s.rc.role
  sync    := s.rc.sync
  epoch   := s.rc.epoch
  gen     := s.pass.gen
  applied := s.apply.applied

/-- The frame `f` started on the cable (R56). -/
def startFrame (f : Frame) (s : State) : State := s.onLink fun l => { l with sending := some ⟨f, false⟩ }

/-- The HELLO with its seen flag set that the transmitter is sending. -/
def sendingSeenHello (l : Link) : Bool :=
  match l.sending with
  | some ⟨.hello h, _⟩ => h.seen
  | _ => false

/-- A frame boundary: the frame last started has been sent (R56). The last byte of a HELLO with its seen flag set has a row
of its own in HELLO, HELLO_TRANSMITTED, which this does not stand for. -/
def endFrame (l : Link) : Link :=
  if l.state = .hello ∧ sendingSeenHello l = true then l else { l with sending := none }

/-- The transmitter's choice at a frame boundary in state HELLO or UP: NAK, ACK, HEARTBEAT, HELLO, then the
next sequenced frame if it is ready (R56, R59, R97, R110). -/
def transmitNext (s : State) : State :=
  if s.link.nakWaiting then
    startFrame (.nak s.link.expected) (s.onLink fun l => { l with nakWaiting := false })
  else if s.link.ackWaiting then
    startFrame (.ack s.apply.applied)
      ((s.onLink fun l => { l with ackWaiting := false }).onApply fun a => { a with lastAck := a.applied })
  else if s.link.state = .up ∧ s.link.heartbeatWaiting = true then
    startFrame (.heartbeat (localHeartbeat s)) (s.onLink fun l => { l with heartbeatWaiting := false })
  else if s.link.state = .hello ∧ s.link.helloWaiting = true then
    startFrame (.hello (localHello s)) (s.onLink fun l => { l with helloWaiting := false, helloClock := 0 })
  else
    match nextToSend s.disp with
    | some e =>
      if s.link.state = .up ∧ frameReady s.disp e = true then
        startFrame (.sequenced ⟨e.seq, frameBody s e⟩) (s.onDisp (markTransmitted e))
      else s
    | none => s

/-- The byte the transmitter drives while it sends no frame; none while its forwarded clock is stopped, in OFF and for
the 10 ticks of an interface reset, whatever state the link has reached in them (spec section 5.2, R78 to R81). -/
def cableIdle (l : Link) : Option CableByte :=
  if l.resetTicks.isSome then none
  else
    match l.state with
    | .off => none
    | .train => some (if l.aligned then alignedIdleByte else alignmentIdleByte)
    | _ => some idleByte

/-- The bytes the transmitter drives for the frame it is sending (R59, R78). -/
def cableFrame (l : Link) : List CableByte :=
  match l.sending with
  | some x => framed (sendingBytes x)
  | none => []

end Sys2Proof.Machine
end

