-- ==== Sys2Proof/Machine/Apply.lean ====
section
/-! DEFINITION. The Apply Engine: what each entry writes, the merge of a partial journal word, completion and
the control entries (spec chapter 6). -/

namespace Sys2Proof.Machine

/-- The Apply Engine applies entries in this role (R104). -/
def applies (r : Role) : Bool := decide (r = .standby ∨ r = .takeover)

/-- The word positions a RECORD entry writes, in its order: every position but K ascending, K last (R105). -/
def writeOrder (w : RecordWindow) : List Nat :=
  ((List.range w.size).filter fun p => decide (p ≠ w.stateWord)) ++ [w.stateWord]

/-- The writes of a JOURNAL_BLOCK: its four words in ascending address order (R108). -/
def blockWrites (w : JournalWindow) (f : Nat) (w0 w1 w2 w3 : DWord) : List (Addr × DWord) :=
  [(w.wordAddr f, w0), (w.wordAddr (f + 1), w1), (w.wordAddr (f + 2), w2), (w.wordAddr (f + 3), w3)]

/-- The writes of an entry, in order, each a full word (R105 to R108). A partial JOURNAL_WORD writes its
merged word, once its read has been granted; control entries write nothing. -/
def entryWrites (t : Vector Window 8) (merged : Option (DWord × ReadClass)) : SeqBody → List (Addr × DWord)
  | .record k i ws =>
    match recordAt t k with
    | some w => (writeOrder w).map fun p => (w.wordAddr i.toNat p, ws.getD p 0)
    | none => []
  | .tombstone k i =>
    match recordAt t k with
    | some w => [(w.wordAddr i.toNat w.stateWord, 0)]
    | none => []
  | .discard k i =>
    match recordAt t k with
    | some w => [(w.wordAddr i.toNat w.stateWord, 0)]
    | none => []
  | .journalWord k o m d =>
    match journalAt t k with
    | some w =>
      if m = 0xFF then [(w.wordAddr o.toNat, d)]
      else if m = 0 then []
      else
        match merged with
        | some (x, _) => [(w.wordAddr o.toNat, x)]
        | none => []
    | none => []
  | .journalBlock k o _ w0 w1 w2 w3 =>
    match journalAt t k with
    | some w => blockWrites w o.toNat w0 w1 w2 w3
    | none => []
  | .syncBegin => []
  | .syncDone _ => []
  | .handover _ => []

/-- The entry completes as soon as it becomes the head: a control entry, or a JOURNAL_WORD with no byte set
(R104, R107). -/
def immediate : SeqBody → Bool
  | .journalWord _ _ m _ => decide (m = 0)
  | .syncBegin => true
  | .syncDone _ => true
  | .handover _ => true
  | _ => false

/-- The address of the merge read the head entry waits for: a partial JOURNAL_WORD not yet read (R107). -/
def mergeReadAddr (t : Vector Window 8) (merged : Option (DWord × ReadClass)) : SeqBody → Option Addr
  | .journalWord k o m _ =>
    if m ≠ 0 ∧ m ≠ 0xFF ∧ merged = none then (journalAt t k).map fun w => w.wordAddr o.toNat else none
  | _ => none

/-- The completion of a JOURNAL_WORD: its slot's journal applied count gains 1, wrapping, and a merge over an
UNCORRECTABLE read is reported (R107, R111). -/
def completeWord (k : Slot) (o : Nat) (merged : Option (DWord × ReadClass)) (s : State) : State :=
  let s1 := s.onApply fun a => { a with counts := a.counts.set k (a.counts[k] + 1) }
  match merged with
  | some (_, .uncorrectable) => reportDiscard .journalWord k o s1
  | _ => s1

/-- A HANDOVER applied: the carried E is entered as the peer record's E; a STANDBY part adopts it if it is
greater and moves to TAKEOVER, and a TAKEOVER part stays (R113, R137, R143, R144). -/
def handoverApplied (e : Epoch) (s : State) : State :=
  let s1 := s.onLink fun l => { l with peer := { l.peer with epoch := e } }
  if s.rc.role = .standby then setRole .takeover (adoptEpoch s1) else s1

/-- The completion effects of an entry (R106 to R108, R111 to R113). `merged` is what its merge read left; an entry with
all bytes set or none has made no read (R107). -/
def completionEffects (b : SeqBody) (merged : Option (DWord × ReadClass)) (s : State) : State :=
  match b with
  | .record _ _ _ => s
  | .tombstone _ _ => s
  | .discard k i => reportDiscard .record k i.toNat s
  | .journalWord k o m _ => completeWord k o.toNat (if m = 0 ∨ m = 0xFF then none else merged) s
  | .journalBlock _ _ l _ _ _ _ => if l then raise .journalRecopied s else s
  | .syncBegin => s.onRc fun c => { c with sync := .syncing }
  | .syncDone g =>
    raise .syncDone ((s.onPass fun p => { p with gen := g }).onRc fun c => { c with sync := .inSync })
  | .handover e => handoverApplied e s

/-- An ACK is waiting when the new A differs from the value last carried by an ACK and the link is UP
(R110). -/
def queueAck (s : State) : State :=
  if s.link.state = .up ∧ s.apply.applied ≠ s.apply.lastAck then
    s.onLink fun l => { l with ackWaiting := true }
  else s

/-- The completion of the head entry `f`, with `rest` behind it, in one step; a held read that it was the last entry to
cover is released with its departure, before any promotion that follows (R29, R109). -/
def completeHead (f : SeqFrame) (rest : List SeqFrame) (s : State) : State :=
  settleSeen
    (queueAck
      (completionEffects f.body s.apply.merged
        (freeRead s
          (s.onApply fun a =>
            { a with queue := rest, written := 0, merged := none, applied := f.seq + 1 }))))

/-- The entries that complete as they become the head, one after another (R104, R107). -/
def completeImmediate : List SeqFrame → State → State
  | [], s => s
  | f :: rest, s => if immediate f.body then completeImmediate rest (completeHead f rest s) else s

/-- The end of a step that changed the head of the apply queue: the immediate entries at its front complete,
and a TAKEOVER part whose queue has become empty is promoted (R104, R116, R144). -/
def settleQueue (s : State) : State :=
  promoteIfDrained (if applies s.rc.role then completeImmediate s.apply.queue s else s)

/-- The apply class's next write: the address and the data (R30, R104). -/
def nextWrite (s : State) : Option (Addr × DWord) :=
  if applies s.rc.role then
    match s.apply.queue with
    | f :: _ => (entryWrites s.windows s.apply.merged f.body)[s.apply.written]?
    | [] => none
  else none

/-- The apply class's merge read (R30, R107). -/
def nextMergeRead (s : State) : Option Addr :=
  if applies s.rc.role then
    match s.apply.queue with
    | f :: _ => mergeReadAddr s.windows s.apply.merged f.body
    | [] => none
  else none

/-- One word of the head entry written with generated check bits; the entry completes with its last word, and the
takeover conditions are judged with what the completion brings (R33, R104, R109, R142). -/
def applyWrite (s : State) : State :=
  match nextWrite s, s.apply.queue with
  | some (a, d), f :: rest =>
    let s1 := (s.onMem fun m => memWrite m a (codedWord d)).onApply fun x => { x with written := x.written + 1 }
    if (entryWrites s.windows s.apply.merged f.body).length ≤ s.apply.written + 1 then
      judgeTakeover s (settleQueue (completeHead f rest s1))
    else s1
  | _, _ => s

/-- The merge read of a partial JOURNAL_WORD: classified, and its bytes merged under the mask (R34, R107). -/
def applyRead (s : State) : State :=
  match nextMergeRead s, s.apply.queue with
  | some a, f :: _ =>
    match f.body with
    | .journalWord _ _ m d =>
      let cd := classify (memRead s.mem a)
      (countCorrected cd.1 s).onApply fun x => { x with merged := some (mergeBytes cd.2 d m, cd.1) }
    | _ => s
  | _, _ => s

/-- The next request of the apply class made: its merge read or its write (R30). -/
def applyGrant (s : State) : State := if (nextMergeRead s).isSome then applyRead s else applyWrite s

end Sys2Proof.Machine
end

