-- ==== Sys2Proof/Machine/Port.lean ====
section
/-! DEFINITION. The memory port arbiter, the posting writes, and the close of a step: what is posted, INT_N
and the offered requests (spec section 2.7, R166, R167, R171). -/

namespace Sys2Proof.Machine

/-! ## Part requests -/

/-- BCLK runs, so that the arbiter grants slots, whether or not the monitor watches it (R32). -/
def clockRuns (s : State) : Bool := s.rc.bclkQuiet.isNone

/-- The requests the classes offer now, apply before readout before status (R30). -/
def currentOffers (s : State) : List Offer :=
  (if (nextWrite s).isSome || (nextMergeRead s).isSome then
    match s.apply.queue with
    | f :: _ => [.apply f.seq s.apply.written s.apply.merged.isSome]
    | [] => []
  else []) ++
  (match readingEntry s.disp with
   | some e =>
     match readoutOf s.disp e with
     | some r => [.readout e.seq r.restarts r.words.length]
     | none => []
   | none => []) ++
  (match s.csu.postQueue with
   | p :: _ => [.status p.word]
   | [] => [])

/-- The offered requests kept in the order in which they were first offered, and the waiting count at 0 when
no part request waits (R31). -/
def settleOffers (s : State) : State :=
  let now := currentOffers s
  s.onBpt fun b =>
    { b with
      offers := b.offers.filter (fun o => decide (o ∈ now)) ++ now.filter fun o => decide (o ∉ b.offers)
      waitCount := if now.isEmpty then 0 else b.waitCount }

/-- The close of a step that began in `before`: the state words with a changed field are posted in ascending order, behind
the words posted within the step: DESIGN CHOICE (log entry 9). INT_N follows the two sets, and the offered requests are
settled (R31, R166, R171). -/
def close (before s : State) : State := settleOffers (postChanged before stateWords (driveInt s))

/-! ## Posting writes -/

/-- The front word of the posting queue written to the status page with generated check bits. When the DONE
value of word 2 is written, the held result value, if any, becomes pending (R33, R166, R167). -/
def postingWrite (s : State) : State :=
  match s.csu.postQueue with
  | [] => s
  | p :: rest =>
    let s1 :=
      (s.onMem fun m => memWrite m (BitVec.ofNat 19 (Config.statusBase + p.word)) (codedWord p.value)).onCsu
        fun c => { c with postQueue := rest }
    if p.word = 2 ∧ p.value.getLsbD 63 = true then
      match s.csu.resultHold with
      | some v => s1.onCsu fun c => { c with postQueue := postInto 2 v c.postQueue, resultHold := none }
      | none => s1
    else s1

/-! ## Granting a part request -/

/-- The class of a request. -/
inductive PortClass where
  | apply | readout | status
deriving DecidableEq, Repr

/-- The class that makes a request (R30). -/
def Offer.cls : Offer → PortClass
  | .apply _ _ _ => .apply
  | .readout _ _ _ => .readout
  | .status _ => .status

/-- The request of class `c` carried by a slot. -/
def serve (c : PortClass) (s : State) : State :=
  match c with
  | .apply => applyGrant s
  | .readout => readoutWord s
  | .status => postingWrite s

/-- A slot granted to class `c`: the waiting count returns to 0 and the class's next request waits anew
(R30, R31). -/
def grantPart (c : PortClass) (s : State) : State :=
  serve c
    (s.onBpt fun b => { b with waitCount := 0, offers := b.offers.filter fun o => decide (o.cls ≠ c) })

/-- A decoded upstream access waits for the next slot alone (R30). -/
def upstreamReady (s : State) : Bool :=
  match s.bpt.held with
  | .port _ => true
  | _ => false

/-- The class the arbiter serves in its next slot: apply before readout before status, and none where the slot is an
upstream access's (R30). -/
def nextClass (s : State) : Option PortClass :=
  if upstreamReady s then none else (currentOffers s).head?.map Offer.cls

/-! ## Granting an upstream access -/

/-- The address of the readout class's offered read (R30). -/
def offeredReadout (s : State) : Option Addr :=
  match readingEntry s.disp with
  | some e =>
    match readoutOf s.disp e with
    | some r => readoutAddr s.windows r
    | none => none
  | none => none

/-- The class that the waiting rule serves before the upstream access `a`: with the count at 32, the class
that has waited longest; none when its request is a readout read of the word that `a` writes (R31). -/
def waitingRule (a : Access) (s : State) : Option PortClass :=
  if s.bpt.waitCount = 32 then
    match s.bpt.offers.head?.map Offer.cls with
    | some .readout => if a.write = true ∧ offeredReadout s = some a.addr then none else some .readout
    | x => x
  else none

/-- The memory cycle of an upstream access: a write is driven as the processor drove it, a read returns the
word as the SSRAM holds it (R16). -/
def driveAccess (a : Access) (s : State) : State :=
  if a.write then s.onMem fun m => memDrive m a
  else s.onBpt fun b => { b with readData := memRead s.mem a.addr }

/-- The waiting count after a slot granted to an upstream access (R31). -/
def countUpstream (s : State) : State :=
  s.onBpt fun b => { b with waitCount := if b.offers.isEmpty then 0 else min 32 (b.waitCount + 1) }

/-- An upstream access granted the port, after the one slot the waiting rule may take (R30, R31). The state
before it has been closed, so that its offered requests are settled. -/
def grantUpstream (a : Access) (s : State) : State :=
  match waitingRule a s with
  | some c =>
    let s1 := close s (grantPart c s)
    countUpstream (driveAccess a s1)
  | none => countUpstream (driveAccess a s)

/-- An upstream access forwarded now, or held for its memory cycle while BCLK does not run (R27, R32). -/
def forward (a : Access) (s : State) : State :=
  if clockRuns s then grantUpstream a s else s.onBpt fun b => { b with held := .port a }

/-- The end of the current hold (R16). -/
def endHold (s : State) : State := s.onBpt fun b => { b with held := .none }

end Sys2Proof.Machine
end

