-- ==== Sys2Proof/Machine/Commands.lean ====
section
/-! DEFINITION. The commands of the control page: intake, each command's checks and effect, overrun and abort
(spec section 9.2, R159 to R163, and the rules that own each command). -/

namespace Sys2Proof.Machine

/-! ## Windows -/

/-- DEFINE_WINDOW at intake: refused by the first check that fails, or running (R5, R160). -/
def commandDefine (w1 w2 w3 : DWord) (s : State) : State :=
  match checkDefine s.rc.role s.windows (defineFields w1 w2 w3) with
  | .error e => completeWith Command.defineWindow.code e (totalRecords s.windows) s
  | .ok (k, w) => s.onCsu fun c => { c with running := some (.define k w 0) }

/-- CLEAR_WINDOW at intake (R11, R160). -/
def commandClear (w1 : DWord) (s : State) : State :=
  if s.rc.role ≠ .init then
    completeWith Command.clearWindow.code .wrongRole (totalRecords s.windows) s
  else
    match slotOperand w1 with
    | none => completeWith Command.clearWindow.code .badArgument (totalRecords s.windows) s
    | some k => s.onCsu fun c => { c with running := some (.clear k 0) }

/-- The journal state of a slot that has just been given the window `w` (R10, R73). -/
def freshJournalState : Window → Option JournalState
  | .journal _ => some .desync
  | _ => none

/-- The slot `k` replaced by `w`: the table with its tag bases, and the per-slot state of the other blocks,
in one step. The tags of a new RECORD window are CLEAN with their marks set; whatever the slot held before is
dropped (R3, R10, R11, R111). -/
def installWindow (k : Slot) (w : Window) (s : State) : State :=
  let t := replaceSlot s.windows k w
  let s1 := s.onWindows fun _ => t
  let s2 := s1.onRts fun r =>
    { freshTags (tagBaseOf t k) w.records r with pointers := r.pointers.set k 0 }
  (setJournalState k (freshJournalState w) s2).onApply fun a => { a with counts := a.counts.set k 0 }

/-- The completion of an accepted DEFINE_WINDOW or CLEAR_WINDOW (R10, R11, R160). Nothing happens while no
such command runs. -/
def completeProlonged (s : State) : State :=
  match s.csu.running with
  | some (.define k w _) =>
    let s1 := installWindow k w s
    completeWith Command.defineWindow.code .ok (totalRecords s1.windows) s1
  | some (.clear k _) =>
    let s1 := installWindow k .none s
    completeWith Command.clearWindow.code .ok (totalRecords s1.windows) s1
  | _ => s

/-! ## Timing, start and stop -/

/-- SET_TIMING (R164). -/
def commandTiming (w1 w2 : DWord) (s : State) : State :=
  if s.rc.role ≠ .init then completeWith Command.setTiming.code .wrongRole 0 s
  else
    match timingOf w1 w2 with
    | none => completeWith Command.setTiming.code .badArgument 0 s
    | some (t, moved) =>
      completeWith Command.setTiming.code (if moved then .okClamped else .ok) 0
        (s.onCsu fun c => { c with timing := t })

/-- The part of START that both operands share (R139): the link moves from OFF to TRAIN, the heartbeat periods
begin, the liveness timer starts and the bus clock monitor watches. -/
def startSupervision (s : State) : State :=
  (startLiveness
    ((enterTrain s).onLink fun l =>
      { l with
        view := .none, missCount := 0, frameInPeriod := false, frameAtBoundary := false,
        periodClock := some 0, heartbeatWaiting := false })).onRc fun c => { c with busClock := .present }

/-- START in the role its operand names (R137, R139). -/
def startAs (r : Role) (s : State) : State :=
  startSupervision
    (if r = .active then setRole .active (s.onRc fun c => { c with epoch := c.epoch + 1 })
     else adoptEpoch ((setRole .standby s).onRc fun c => { c with sync := .unsynced }))

/-- START (R139). -/
def commandStart (w1 : DWord) (s : State) : State :=
  if s.rc.role ≠ .init then completeWith Command.start.code .wrongRole 0 s
  else
    match startRoleOf w1 with
    | none => completeWith Command.start.code .badArgument 0 s
    | some r => completeWith Command.start.code .ok 0 (startAs r s)

/-- The link at STOP: OFF, with the effects of leaving UP if it was UP (R79, R86, R99 to R101). -/
def stopLink (s : State) : State :=
  let s1 := s.onLink fun l =>
    { l with
      state := .off, resetTicks := none, alignCount := 0, aligned := false, strayBytes := 0, incoming := none,
      seen := false, helloPassed := false, helloSeenIn := false, helloSeenOut := false,
      ackWaiting := false, nakWaiting := false, heartbeatWaiting := false, helloWaiting := false,
      periodClock := none, frameInPeriod := false, frameAtBoundary := false, missCount := 0, view := .none,
      sending := none }
  if s.link.state = .up then raise .linkDown s1 else s1

/-- What STOP does in a role other than INIT, in one step (R140). -/
def stopEffects (s : State) : State :=
  ((setRole .init (leaveHandoff (emptyApply (clearReplication (stopLink s))))).onRc fun c =>
    { c with liveness := none, busClock := .notWatching }).onDisp fun d =>
      { d with roundRobin := Vector.replicate 4 7 }

/-- STOP taken while the CSU is idle; `aborted` is the code of the command it aborted, or 0 (R140, R162). -/
def commandStop (aborted : Byte) (s : State) : State :=
  completeWith Command.stop.code .ok aborted.toNat (if s.rc.role = .init then s else stopEffects s)

/-! ## Roles -/

/-- SWITCHOVER (R49, R146), with the judgement of convergence at the entry to HANDOFF (R147). -/
def commandSwitchover (w1 : DWord) (s : State) : State :=
  if s.rc.role ≠ .active then completeWith Command.switchover.code .wrongRole 0 s
  else if bitsOf w1 0 16 < 10 ∨ 10000 < bitsOf w1 0 16 then
    completeWith Command.switchover.code .badArgument 0 s
  else if s.link.view ≠ .paired ∨ s.link.peer.role ≠ .standby ∨ s.link.peer.sync ≠ .inSync then
    completeWith Command.switchover.code .notPaired 0 s
  else
    judgeConverged
      (handoffSweep
        (((setRole .handoff s).onRc fun c =>
          { c with closing := false, handoff := some 0, handoffMs := bitsOf w1 0 16 }).onCsu fun c =>
            { c with running := some .switchover }))

/-- TAKE_OVER (R143). -/
def commandTakeOver (s : State) : State :=
  if s.rc.role ≠ .standby then completeWith Command.takeOver.code .wrongRole 0 s
  else if s.link.view = .paired ∧ (s.link.peer.role = .active ∨ s.link.peer.role = .handoff) then
    completeWith Command.takeOver.code .peerActive 0 s
  else completeWith Command.takeOver.code .ok 0 (takeOverNow s)

/-- RELEASE (R154). -/
def commandRelease (s : State) : State :=
  if s.rc.role = .standby ∨ s.rc.role = .takeover ∨ s.rc.role = .active then
    completeWith Command.release.code .ok 0 (enterReleased s)
  else completeWith Command.release.code .wrongRole 0 s

/-- RESUME (R155), with the takeover conditions judged at the entry to STANDBY (R141, R142). -/
def commandResume (s : State) : State :=
  if s.rc.role ≠ .released then completeWith Command.resume.code .wrongRole 0 s
  else
    completeWith Command.resume.code .ok 0
      (judgeTakeover s
        (startLiveness
          (adoptEpoch ((setRole .standby s).onRc fun c => { c with sync := .unsynced }))))

/-! ## Resync and query -/

/-- RESYNC (R129). -/
def commandResync (s : State) : State :=
  if s.rc.role ≠ .active then completeWith Command.resync.code .wrongRole 0 s
  else if s.link.view ≠ .paired ∨ s.link.peer.role ≠ .standby then
    completeWith Command.resync.code .notPaired 0 s
  else completeWith Command.resync.code .ok 0 (resyncNow s)

/-- The result field of QUERY_RECORD for a tag (R177). -/
def queryField (t : Tag) : Nat := tagCode t.state + 256 * t.covered.toNat

/-- QUERY_RECORD (R55). -/
def commandQuery (w1 : DWord) (s : State) : State :=
  match slotOperand w1 with
  | none => completeWith Command.queryRecord.code .badArgument 0 s
  | some k =>
    match recordAt s.windows k with
    | none => completeWith Command.queryRecord.code .badArgument 0 s
    | some w =>
      if bitsOf w1 32 16 < w.count then
        completeWith Command.queryRecord.code .ok
          (queryField (tagAt s.rts (w.tagBase + bitsOf w1 32 16))) s
      else completeWith Command.queryRecord.code .badArgument 0 s

/-! ## The command trigger -/

/-- The command `c` handed to the block that owns it, with the carried words 1, 2 and 3 (R159, R163). -/
def runCommand (c : Command) (w1 w2 w3 : DWord) (s : State) : State :=
  match c with
  | .defineWindow => commandDefine w1 w2 w3 s
  | .clearWindow => commandClear w1 s
  | .setTiming => commandTiming w1 w2 s
  | .start => commandStart w1 s
  | .stop => commandStop 0 s
  | .switchover => commandSwitchover w1 s
  | .takeOver => commandTakeOver s
  | .release => commandRelease s
  | .resume => commandResume s
  | .resync => commandResync s
  | .queryRecord => commandQuery w1 s

/-- A command trigger taken by an idle CSU: the intake, then the command; a code that names none completes at
once with UNKNOWN_COMMAND (R159). -/
def takeTrigger (code : Byte) (w1 w2 w3 : DWord) (s : State) : State :=
  match commandOf code with
  | some c => runCommand c w1 w2 w3 (intakeResult code s)
  | none => completeWith code .unknownCommand 0 (intakeResult code s)

/-- A STOP trigger on a busy CSU: the running command completes with ABORTED, then STOP is taken and
completes with its code in the result field (R162). -/
def abortAndStop (r : Running) (s : State) : State :=
  commandStop r.code (intakeResult Command.stop.code (completeWith r.code .aborted 0 s))

/-- A command trigger carrying the shadow values of words 0..3 (R159, R161, R162, R176). -/
def commandTrigger (w0 w1 w2 w3 : DWord) (s : State) : State :=
  match s.csu.running with
  | none => takeTrigger (w0.setWidth 8) w1 w2 w3 s
  | some r =>
    if w0.setWidth 8 = Command.stop.code then abortAndStop r s else raise .commandOverrun s

/-! ## Housekeeping events -/

/-- The liveness event (R156): it restarts the timer outside INIT. -/
def livenessEvent (s : State) : State := if s.rc.role = .init then s else startLiveness s

/-- The notice enable event: the enable set replaced by bits 15:0 of the carried word (R170, R176). -/
def enableEvent (w : DWord) (s : State) : State := s.onCsu fun c => { c with enableSet := w.setWidth 16 }

/-- The notice clear event: the kinds whose bits are set leave the pending set (R170, R176). -/
def clearEvent (w : DWord) (s : State) : State :=
  s.onCsu fun c => { c with pendingSet := c.pendingSet &&& ~~~ w.setWidth 16 }

end Sys2Proof.Machine
end

