-- ==== Sys2Proof/Machine/Bus.lean ====
section
/-! DEFINITION. The session bus path: the decode of an upstream access and its treatment, stalls and held
reads (spec chapter 2). -/

namespace Sys2Proof.Machine

/-! ## What a role does with window accesses (R17) -/

/-- Window writes are captured: ACTIVE, and HANDOFF before closing (R22, R25). -/
def captures (c : RoleController) : Bool :=
  decide (c.role = .active ∨ (c.role = .handoff ∧ c.closing = false))

/-- Window writes are suppressed: STANDBY, TAKEOVER, and HANDOFF in closing (R23). -/
def suppresses (c : RoleController) : Bool :=
  decide (c.role = .standby ∨ c.role = .takeover ∨ (c.role = .handoff ∧ c.closing = true))

/-- A window write that is not driven to the memory port (R23). -/
def countSuppressed (s : State) : State :=
  s.onBpt fun b => { b with suppressed := saturatingInc b.suppressed }

/-! ## The control page -/

/-- The shadow value of control page word `i`. -/
def shadowWord (s : State) (i : Fin 16) : DWord := s.bpt.shadow[i]

/-- The merge of a write into the shadow of control page word `i`, if it is one of words 0..15 (R18). -/
def mergeShadow (i : Nat) (data : DWord) (enables : Byte) (s : State) : State :=
  if h : i < 16 then
    s.onBpt fun b => { b with shadow := b.shadow.set i (mergeBytes b.shadow[i] data enables) }
  else s

/-- The event that a write with some byte enable set to control page word `i` delivers, with the shadow values
after the merge (R19, R158). -/
def controlEvent (i : Nat) (s : State) : State :=
  match i with
  | 0 => commandTrigger (shadowWord s 0) (shadowWord s 1) (shadowWord s 2) (shadowWord s 3) s
  | 8 => livenessEvent s
  | 9 => enableEvent (shadowWord s 9) s
  | 10 => clearEvent (shadowWord s 10) s
  | _ => s

/-- A processor write to control page word `i`, at its decode: the merge, then the event (R18, R19). -/
def controlDecode (i : Nat) (data : DWord) (enables : Byte) (s : State) : State :=
  let s1 := mergeShadow i data enables s
  if enables = 0 then s1 else controlEvent i s1

/-! ## The status page -/

/-- A suppressed status page write: PAGE_VIOLATION and its address (R21). -/
def pageViolation (a : Addr) (s : State) : State :=
  raise .pageViolation (s.onCsu fun c => { c with violation := a })

/-! ## The decode of an access (R17) -/

/-- What becomes of an access at its decode. -/
inductive Treatment where
  /-- it goes to the memory port -/
  | forwarded
  /-- it completes at the upstream port with no memory cycle (R16) -/
  | suppressed
  /-- it is held with WAIT_N low -/
  | held (h : Held)
deriving DecidableEq, Repr

/-- The regions of R17. -/
inductive Region where
  | control (word : Nat)
  | status (word : Nat)
  | record (slot : Slot) (w : RecordWindow) (index position : Nat)
  | journal (slot : Slot) (w : JournalWindow) (offset : Nat)
  | ordinary
deriving DecidableEq, Repr

/-- The region a word address lies in, tested in the order of R17. -/
def regionOf (t : Vector Window 8) (a : Addr) : Region :=
  if Config.controlBase ≤ a.toNat then .control (a.toNat - Config.controlBase)
  else if Config.statusBase ≤ a.toNat then .status (a.toNat - Config.statusBase)
  else
    match placeOf t a.toNat with
    | .outside => .ordinary
    | .record k w i p => .record k w i p
    | .journal k w f => .journal k w f

/-- A write into a RECORD window (R22 to R24). -/
def recordWrite (k : Slot) (w : RecordWindow) (i p : Nat) (enables : Byte) (s : State) : Treatment × State :=
  if suppresses s.rc then (.suppressed, countSuppressed s)
  else if captures s.rc ∧ enables ≠ 0 then (.forwarded, capture k w i p s)
  else (.forwarded, s)

/-- The WORD entry of a journal write (R25). -/
def wordEntry (k : Slot) (f : Nat) (a : Access) : JournalEntry := .word k f a.data a.enables

/-- A write into a JOURNAL window (R23 to R26). -/
def journalWrite (k : Slot) (f : Nat) (a : Access) (s : State) : Treatment × State :=
  if suppresses s.rc then (.suppressed, countSuppressed s)
  else if captures s.rc ∧ a.enables ≠ 0 ∧ queuesWrites s.journals.states[k] = true then
    if journalRoomLeft s then (.forwarded, appendEntry (wordEntry k f a) s)
    else (.held (.stall a 0), s)
  else (.forwarded, s)

/-- The decode of an access by its region: its treatment, and the state with what the decode delivers to the
other blocks (R17 to R28). -/
def decodeAccess (a : Access) (s : State) : Treatment × State :=
  match regionOf s.windows a.addr with
  | .control i => (.forwarded, if a.write then controlDecode i a.data a.enables s else s)
  | .status _ => if a.write then (.suppressed, pageViolation a.addr s) else (.forwarded, s)
  | .record k w i p =>
    if a.write then recordWrite k w i p a.enables s
    else if applies s.rc.role ∧ covered s a.addr = true then (.held (.read a.addr), s)
    else (.forwarded, s)
  | .journal k _ f =>
    if a.write then journalWrite k f a s
    else if applies s.rc.role ∧ covered s a.addr = true then (.held (.read a.addr), s)
    else (.forwarded, s)
  | .ordinary => (.forwarded, s)

/-- An access taken: decoded once, and then forwarded, suppressed or held (R16, R17). What the decode delivers
is posted before the access is granted the port, so the step is closed twice. -/
def takeAccess (a : Access) (s : State) : State :=
  let d := decodeAccess a s
  let s1 := close s d.2
  match d.1 with
  | .forwarded => close s1 (forward a s1)
  | .suppressed => s1
  | .held h => s1.onBpt fun b => { b with held := h }

/-- No later upstream access is taken: one is held, or BCLK does not run (R16, R32). -/
def busBlocked (s : State) : Bool := decide (s.bpt.held ≠ .none) || !clockRuns s

/-- An access presented at the upstream port: taken, or made to wait behind the one that is held (R16,
R30). Its step is closed here. -/
def present (a : Access) (s : State) : State :=
  if busBlocked s || !s.bpt.waiting.isEmpty then
    close s (s.onBpt fun b => { b with waiting := b.waiting ++ [a] })
  else takeAccess a s

/-! ## Accesses of the pages -/

/-- A write of control page word `i`. -/
def controlAccess (i : BitVec 6) (data : DWord) (check enables : Byte) : Access :=
  ⟨true, BitVec.ofNat 19 (Config.controlBase + i.toNat), data, check, enables⟩

/-- A write of status page word `i`. -/
def statusAccess (i : BitVec 6) (data : DWord) (check enables : Byte) : Access :=
  ⟨true, BitVec.ofNat 19 (Config.statusBase + i.toNat), data, check, enables⟩

/-- The write of control page word 0 that enables byte 0 and drives the command code `code` there (R175,
R176). -/
def commandAccess (code : Byte) (rest : BitVec 56) (check : Byte) (enables : BitVec 7) : Access :=
  controlAccess 0 (rest ++ code) check (enables ++ 1#1)

/-! ## The end of a stall (R26, R27) -/

/-- The slot of the stalled write's window. -/
def stallSlot (s : State) (a : Access) : Option Slot := slotOf s.windows a.addr.toNat

/-- The journal state of the stalled write's window. -/
def stallState (s : State) (a : Access) : Option JournalState :=
  match stallSlot s a with
  | some k => s.journals.states[k]
  | none => none

/-- The stalled write has room: it is captured, its window's writes are queued, and the Journal Queue has a place
(R26, R72). -/
def stallHasRoom (s : State) : Bool :=
  match s.bpt.held with
  | .stall a _ =>
    match regionOf s.windows a.addr with
    | .journal k _ _ => captures s.rc && queuesWrites s.journals.states[k] && journalRoomLeft s
    | _ => false
  | _ => false

/-- Room ends the stall: the WORD entry is appended and the write forwarded (R26). Its step is closed
here. -/
def stallRoom (s : State) : State :=
  match s.bpt.held with
  | .stall a _ =>
    match regionOf s.windows a.addr with
    | .journal k _ f =>
      if stallHasRoom s then
        let s1 := close s (appendEntry (wordEntry k f a) (endHold s))
        close s1 (forward a s1)
      else s
    | _ => s
  | _ => s

/-- Expiry ends a stall for which no room has appeared: the write is forwarded uncaptured and its window becomes
DESYNC (R26, R73). Where an entry has left the queue, the room ends the stall and the expiry finds nothing to act on.
Its step is closed here. -/
def stallExpiry (s : State) : State :=
  match s.bpt.held with
  | .stall a _ =>
    if stallHasRoom s then s
    else
      let s0 := endHold s
      let s1 := close s (match stallSlot s a with
        | some k => enterDesync k s0
        | none => s0)
      close s1 (forward a s1)
  | _ => s

/-- A stalled write resolved under the role and the journal state in force after an event of R27. -/
def resolveStall (s : State) : State :=
  match s.bpt.held with
  | .stall a _ =>
    if suppresses s.rc then countSuppressed (endHold s)
    else if captures s.rc && queuesWrites (stallState s a) then s
    else forward a (endHold s)
  | _ => s

/-- The close of a step whose event may reach a stalled write (R27). The write is resolved once, at the end of the step,
under the role and the journal state the step leaves, also where one HELLO first shows the peer leaving STANDBY and
then demotes the part: the write is suppressed. DESIGN CHOICE (log entry 23). -/
def finish (before s : State) : State :=
  let s1 := close before s
  close s1 (resolveStall s1)

/-- The state on which an event that may end a stall is taken: room that has appeared before it has ended the stall (R26,
R27, R72). The departure of the entry and the room that follows are two steps of the table, and no event of R27 comes
between them: DEDUCED (log entry 24). -/
def takeEvent (event : State → State) (s : State) : State := finish (stallRoom s) (event (stallRoom s))

/-! ## Held reads (R29) -/

/-- The slot of a read that was held: once no covering entry remains the read is released, and it returns the content of
memory at its grant (R29, R30). -/
def releaseRead (s : State) : State :=
  match s.bpt.held with
  | .read a => if covered s a then s else forward ⟨false, a, 0, 0, 0⟩ (endHold s)
  | .port a => if a.write = false ∧ clockRuns s = true then forward a (endHold s) else s
  | _ => s

end Sys2Proof.Machine
end

