-- ==== Sys2Proof/Machine/BusCommands.lean ====
section
/-! DEFINITION. The meanings of the session bus path: reset, upstream accesses, stalls and held reads
(chapter 2). -/

namespace Sys2Proof.Machine

/-- POWER_ON_RESET (R133, R168): every block at its reset state, the unit from the strap, every status word
pending. The SSRAM, the level on CLAIM_IN, BCLK, the free values drawn and the waiting commands stand outside the part. -/
def execPowerOnReset (strapB : Bool) (s : State) : Host.Outcome State Fault Refusal :=
  .next (powerOn (if strapB then .b else .a) s.rc.claimIn s.rc.bclkQuiet s.mem s.draws s.pending)

/-- ORDINARY_ACCESS (R16, R17). -/
def execOrdinaryAccess (a : Access) (s : State) : Host.Outcome State Fault Refusal :=
  .next (present a s)

/-- CONTROL_PAGE_WRITE (R18, R19). -/
def execControlPageWrite (word : BitVec 6) (data : DWord) (check enables : Byte) (s : State) :
    Host.Outcome State Fault Refusal :=
  .next (present (controlAccess word data check enables) s)

/-- STATUS_PAGE_WRITE (R21). -/
def execStatusPageWrite (word : BitVec 6) (data : DWord) (check enables : Byte) (s : State) :
    Host.Outcome State Fault Refusal :=
  .next (present (statusAccess word data check enables) s)

/-- RECORD_WINDOW_WRITE (R22 to R24). -/
def execRecordWindowWrite (addr : Addr) (data : DWord) (check enables : Byte) (s : State) :
    Host.Outcome State Fault Refusal :=
  .next (present ⟨true, addr, data, check, enables⟩ s)

/-- JOURNAL_WINDOW_WRITE (R23 to R26). -/
def execJournalWindowWrite (addr : Addr) (data : DWord) (check enables : Byte) (s : State) :
    Host.Outcome State Fault Refusal :=
  .next (present ⟨true, addr, data, check, enables⟩ s)

/-- JOURNAL_STALL_ROOM (R26). -/
def execJournalStallRoom (s : State) : Host.Outcome State Fault Refusal := .next (stallRoom s)

/-- JOURNAL_STALL_EXPIRY (R26, R73). -/
def execJournalStallExpiry (s : State) : Host.Outcome State Fault Refusal := .next (stallExpiry s)

/-- WINDOW_READ (R24, R28). -/
def execWindowRead (addr : Addr) (s : State) : Host.Outcome State Fault Refusal :=
  .next (present ⟨false, addr, 0, 0, 0⟩ s)

/-- HELD_READ_RELEASE (R29). -/
def execHeldReadRelease (s : State) : Host.Outcome State Fault Refusal := .next (close s (releaseRead s))

/-- LIVENESS_WRITE (R19, R156). -/
def execLivenessWrite (data : DWord) (check enables : Byte) (s : State) : Host.Outcome State Fault Refusal :=
  .next (present (controlAccess 8 data check enables) s)

/-- NOTICE_ENABLE (R19, R170, R171). -/
def execNoticeEnable (data : DWord) (check enables : Byte) (s : State) : Host.Outcome State Fault Refusal :=
  .next (present (controlAccess 9 data check enables) s)

/-- NOTICE_CLEAR (R19, R170, R171). -/
def execNoticeClear (data : DWord) (check enables : Byte) (s : State) : Host.Outcome State Fault Refusal :=
  .next (present (controlAccess 10 data check enables) s)

end Sys2Proof.Machine
end

