-- ==== Sys2Proof/Machine/Receive.lean ====
section
/-! DEFINITION. What the receiver does with a received frame, by its kind and the link state at its arrival
(R81, R89, R90, R92). -/

namespace Sys2Proof.Machine

/-- A valid HELLO: it counts, and is taken by the link state; the takeover conditions are judged with it
(R84, R92, R142). -/
def receiveHello (h : HelloFrame) (s : State) : State :=
  if checksFrames s.link then judgeTakeover s (takeHello h s) else passFrame s

/-- A valid HEARTBEAT: it counts, and in UP it is taken (R92, R94). -/
def receiveHeartbeat (h : HeartbeatFrame) (ackFirst : Bool) (s : State) : State :=
  if checksFrames s.link then takeHeartbeat h ackFirst (countFrame s) else passFrame s

/-- A valid ACK: it counts, and in UP its A is resolved (R66, R92). -/
def receiveAck (a : SeqNo) (s : State) : State :=
  if checksFrames s.link then
    if s.link.state = .up then resolveApplied a (countFrame s) else countFrame s
  else passFrame s

/-- A valid NAK: it counts, and in UP it takes a go-back (R67, R92). -/
def receiveNak (e : SeqNo) (s : State) : State :=
  if checksFrames s.link then
    if s.link.state = .up then goBackFrom e (countFrame s) else countFrame s
  else passFrame s

/-- A sequenced frame judged in UP on a STANDBY part, with the effects of an entry that becomes the head of
the apply queue at its acceptance (R93, R95, R104). -/
def takeSequenced (f : SeqFrame) (s : State) : State :=
  if s.link.state = .up ∧ s.rc.role = .standby then
    if s.apply.queue = [] then settleQueue (judgeSequenced f s) else judgeSequenced f s
  else s

/-- A sequenced frame of the right length with a matching CRC: invalid when it fails the window checks, and
otherwise counted and taken (R90, R92, R142). -/
def receiveSequenced (f : SeqFrame) (s : State) : State :=
  if checksFrames s.link then
    if namesKnown s.windows f.body then judgeTakeover s (takeSequenced f (countFrame s)) else dropInvalid s
  else passFrame s

/-- A frame read to its length, given by its bytes: taken as the frame they carry, or invalid (R89, R90). -/
def judgeFrame (l : List Byte) (s : State) : State :=
  match parseFrame l false with
  | none => dropInvalid s
  | some (.hello h) => receiveHello h s
  | some (.heartbeat h) => receiveHeartbeat h true s
  | some (.ack a) => receiveAck a s
  | some (.nak e) => receiveNak e s
  | some (.sequenced f) => receiveSequenced f s

/-- The bytes of the frame being read, with its newest one: a frame read to the length its header gives is judged,
and any other is read on (R89). -/
def readOn (l : List Byte) (s : State) : State :=
  if lengthOf l = some l.length then judgeFrame l (s.onLink fun x => { x with incoming := none })
  else s.onLink fun x => { x with incoming := some l }

/-- One byte of the cable. Where frames are checked, FRAME high in both clock periods begins a frame, and ends short one
that is being read; any other byte belongs to the frame being read, if one is (R78, R81, R82, R89). -/
def takeByte (b : CableByte) (s : State) : State :=
  let k := byteKind b.value b.first b.second
  if checksFrames s.link then
    if k = .frameFirst then readOn [b.value] (s.onLink endShort)
    else
      match s.link.incoming with
      | some l => readOn (l ++ [b.value]) s
      | none => receiveByte k s
  else receiveByte k s

/-- Bytes of the cable, one after another. -/
def takeAll : List CableByte → State → State
  | [], s => s
  | b :: bs, s => takeAll bs (takeByte b s)

/-- The bytes of a frame as they arrive, and, where `cutShort`, the first byte of the next frame, which ends short a
frame still being read (R89). -/
def takeBytes (bytes : List Byte) (cutShort : Bool) (s : State) : State :=
  let s1 := takeAll (framed bytes) s
  if cutShort && checksFrames s1.link then s1.onLink endShort else s1

end Sys2Proof.Machine
end

