-- ==== Sys2Proof/Machine/LinkCommands.lean ====
section
/-! DEFINITION. The meanings of the pairing link's events (chapter 5). -/

namespace Sys2Proof.Machine

/-- The interface reset has lasted its 10 ticks: the forwarded clock runs again, also where the link has reached HELLO
in them (R80, R81). -/
def endInterfaceReset (s : State) : State := s.onLink fun l => { l with resetTicks := none }

/-- INTERFACE_RESET_END (R77, R80). -/
def execInterfaceResetEnd (s : State) : Host.Outcome State Fault Refusal :=
  .next (close s (endInterfaceReset s))

/-- TRAINING_BYTE_RECEIVED (R78, R81, R89, R172). -/
def execTrainingByteReceived (value : Byte) (first second : Bool) (s : State) :
    Host.Outcome State Fault Refusal :=
  .next (takeEvent (takeByte ⟨value, first, second⟩) s)

/-- BYTE_BETWEEN_FRAMES (R78, R82, R89, R172). -/
def execByteBetweenFrames (value : Byte) (first second : Bool) (s : State) :
    Host.Outcome State Fault Refusal :=
  .next (takeEvent (takeByte ⟨value, first, second⟩) s)

/-- RECEIVED_CLOCK_TIMEOUT (R81, R82). -/
def execReceivedClockTimeout (s : State) : Host.Outcome State Fault Refusal :=
  .next (takeEvent loseAlignment s)

/-- A link still in HELLO when M × H has passed moves to TRAIN (R83). -/
def helloTimeout (s : State) : State :=
  if s.link.state = .hello then toTrain .interrupted s else s

/-- HELLO_STATE_TIMEOUT (R83). -/
def execHelloStateTimeout (s : State) : Host.Outcome State Fault Refusal := .next (close s (helloTimeout s))

/-- A HELLO becomes waiting 1 ms after the last was started (R83). -/
def helloDue (s : State) : State :=
  if s.link.state = .hello then s.onLink fun l => { l with helloWaiting := true } else s

/-- HELLO_INTERVAL (R83). -/
def execHelloInterval (s : State) : Host.Outcome State Fault Refusal := .next (close s (helloDue s))

/-- The transmitter at a frame boundary: the previous frame has been sent, and the transmitter chooses the next, in HELLO
and UP only, and not while its clock is stopped for an interface reset (R56, R80). -/
def frameBoundary (s : State) : State :=
  if (s.link.state = .hello ∨ s.link.state = .up) ∧ s.link.resetTicks = none then transmitNext (s.onLink endFrame)
  else s

/-- FRAME_TRANSMIT_START (R56, R59). -/
def execFrameTransmitStart (s : State) : Host.Outcome State Fault Refusal := .next (close s (frameBoundary s))

/-- A local HELLO with the seen flag set has been sent to its last byte (R85). -/
def helloSent (s : State) : State :=
  if s.link.state = .hello ∧ sendingSeenHello s.link = true then
    judgeTakeover s (tryUp (s.onLink fun l => { l with helloSeenOut := true, sending := none }))
  else s

/-- HELLO_TRANSMITTED (R85). -/
def execHelloTransmitted (s : State) : Host.Outcome State Fault Refusal := .next (close s (helloSent s))

/-- HELLO_RECEIVED (R84, R85, R92, R152). -/
def execHelloReceived (h : HelloFrame) (s : State) : Host.Outcome State Fault Refusal :=
  .next (takeEvent (receiveHello h) s)

/-- HEARTBEAT_RECEIVED (R92, R94). -/
def execHeartbeatReceived (h : HeartbeatFrame) (ackFirst : Bool) (s : State) :
    Host.Outcome State Fault Refusal :=
  .next (takeEvent (receiveHeartbeat h ackFirst) s)

/-- ACK_RECEIVED (R66, R92). -/
def execAckReceived (applied : SeqNo) (s : State) : Host.Outcome State Fault Refusal :=
  .next (takeEvent (receiveAck applied) s)

/-- NAK_RECEIVED (R67, R92). -/
def execNakReceived (expected : SeqNo) (s : State) : Host.Outcome State Fault Refusal :=
  .next (close s (receiveNak expected s))

/-- SEQUENCED_FRAME_RECEIVED (R92 to R97). -/
def execSequencedFrameReceived (f : SeqFrame) (s : State) : Host.Outcome State Fault Refusal :=
  .next (close s (receiveSequenced f s))

/-- INVALID_FRAME (R89, R90). -/
def execInvalidFrame (bytes : List Byte) (cutShort : Bool) (s : State) : Host.Outcome State Fault Refusal :=
  .next (takeEvent (takeBytes bytes cutShort) s)

/-- A heartbeat period boundary, between START and STOP (R99, R100). -/
def boundaryPassed (s : State) : State := if s.link.periodClock.isSome then periodBoundary s else s

/-- HEARTBEAT_PERIOD_BOUNDARY (R99 to R101). -/
def execHeartbeatPeriodBoundary (s : State) : Host.Outcome State Fault Refusal :=
  .next (takeEvent boundaryPassed s)

end Sys2Proof.Machine
end

