-- ==== Sys2Proof/Machine/PageCommands.lean ====
section
/-! DEFINITION. The meanings of the commands of the control page (sections 9.2 and 10.2). Each is the write of
control page word 0 that carries its code (R19, R159, R175); its operands are the shadow of words 1 to 3. -/

namespace Sys2Proof.Machine

/-- The write of control page word 0 with the code `code`, presented at the upstream port. -/
def writeCommand (code : Byte) (rest : BitVec 56) (check : Byte) (enables : BitVec 7) (s : State) : State :=
  present (commandAccess code rest check enables) s

/-- DEFINE_WINDOW (R5 to R10). -/
def execDefineWindow (rest : BitVec 56) (check : Byte) (enables : BitVec 7) (s : State) :
    Host.Outcome State Fault Refusal :=
  .next (writeCommand Command.defineWindow.code rest check enables s)

/-- CLEAR_WINDOW (R11). -/
def execClearWindow (rest : BitVec 56) (check : Byte) (enables : BitVec 7) (s : State) :
    Host.Outcome State Fault Refusal :=
  .next (writeCommand Command.clearWindow.code rest check enables s)

/-- PROLONGED_COMMAND_COMPLETION (R10, R11, R160). -/
def execProlongedCommandCompletion (s : State) : Host.Outcome State Fault Refusal :=
  .next (close s (completeProlonged s))

/-- SET_TIMING (R164). -/
def execSetTiming (rest : BitVec 56) (check : Byte) (enables : BitVec 7) (s : State) :
    Host.Outcome State Fault Refusal :=
  .next (writeCommand Command.setTiming.code rest check enables s)

/-- START (R139). -/
def execStart (rest : BitVec 56) (check : Byte) (enables : BitVec 7) (s : State) :
    Host.Outcome State Fault Refusal :=
  .next (writeCommand Command.start.code rest check enables s)

/-- STOP (R140, R162). -/
def execStop (rest : BitVec 56) (check : Byte) (enables : BitVec 7) (s : State) :
    Host.Outcome State Fault Refusal :=
  .next (writeCommand Command.stop.code rest check enables s)

/-- SWITCHOVER (R146). -/
def execSwitchover (rest : BitVec 56) (check : Byte) (enables : BitVec 7) (s : State) :
    Host.Outcome State Fault Refusal :=
  .next (writeCommand Command.switchover.code rest check enables s)

/-- TAKE_OVER (R143). -/
def execTakeOver (rest : BitVec 56) (check : Byte) (enables : BitVec 7) (s : State) :
    Host.Outcome State Fault Refusal :=
  .next (writeCommand Command.takeOver.code rest check enables s)

/-- RELEASE (R154). -/
def execRelease (rest : BitVec 56) (check : Byte) (enables : BitVec 7) (s : State) :
    Host.Outcome State Fault Refusal :=
  .next (writeCommand Command.release.code rest check enables s)

/-- RESUME (R155). -/
def execResume (rest : BitVec 56) (check : Byte) (enables : BitVec 7) (s : State) :
    Host.Outcome State Fault Refusal :=
  .next (writeCommand Command.resume.code rest check enables s)

/-- RESYNC (R129). -/
def execResync (rest : BitVec 56) (check : Byte) (enables : BitVec 7) (s : State) :
    Host.Outcome State Fault Refusal :=
  .next (writeCommand Command.resync.code rest check enables s)

/-- QUERY_RECORD (R55). -/
def execQueryRecord (rest : BitVec 56) (check : Byte) (enables : BitVec 7) (s : State) :
    Host.Outcome State Fault Refusal :=
  .next (writeCommand Command.queryRecord.code rest check enables s)

/-- UNKNOWN_COMMAND (R159, R176). A code that names a command is that command. -/
def execUnknownCommand (code : Byte) (rest : BitVec 56) (check : Byte) (enables : BitVec 7) (s : State) :
    Host.Outcome State Fault Refusal :=
  .next (writeCommand code rest check enables s)

end Sys2Proof.Machine
end

