-- ==== Sys2Proof/Machine/SenderCommands.lean ====
section
/-! DEFINITION. The meanings of the sending half: the Dispatcher's and the Journal Queue's events, the apply
writes and the passes (chapters 4, 6 and 7). -/

namespace Sys2Proof.Machine

/-- The ack timer expires: a retrain is asked for (R68, R87). -/
def ackExpired (s : State) : State :=
  if s.disp.ackTimer.isSome then retrain (s.onDisp fun d => { d with ackTimer := none }) else s

/-- ACK_TIMER_EXPIRY (R68). -/
def execAckTimerExpiry (s : State) : Host.Outcome State Fault Refusal := .next (takeEvent ackExpired s)

/-- The retrain that a set sequence-closed flag asks for (R69). -/
def closedRetrain (s : State) : State := if closedRetrainDue s then retrain s else s

/-- SEQUENCE_CLOSED_RETRAIN (R69). -/
def execSequenceClosedRetrain (s : State) : Host.Outcome State Fault Refusal :=
  .next (takeEvent closedRetrain s)

/-- The next item started, if there is one to start (R57). -/
def startNext (s : State) : State :=
  match chooseItem s with
  | some c => startItem c s
  | none => s

/-- ITEM_START (R57 to R60). -/
def execItemStart (s : State) : Host.Outcome State Fault Refusal := .next (close s (startNext s))

/-- A memory port slot that carries the request of class `c`, when that is the class the arbiter serves (R30,
R32). -/
def portSlot (c : PortClass) (s : State) : State :=
  if clockRuns s && decide (nextClass s = some c) then grantPart c s else s

/-- READOUT_READ (R30, R60 to R64). -/
def execReadoutRead (s : State) : Host.Outcome State Fault Refusal := .next (close s (portSlot .readout s))

/-- The copy of slot `k` begun where R74 lets it begin. -/
def beginCopy (k : Slot) (s : State) : State :=
  if s.journals.states[k] = some .desync ∧ mayCopy s = true ∧ holdsBlock k s.journals.queue = false then
    setJournalState k (some (.copying 0)) s
  else s

/-- COPY_START (R74). -/
def execCopyStart (slot : Slot) (s : State) : Host.Outcome State Fault Refusal :=
  .next (close s (beginCopy slot s))

/-- One BLOCK entry inserted for the lowest COPYING window with blocks left, while the queue holds fewer than
64 entries (R75). -/
def insertNext (s : State) : State :=
  if s.journals.queue.length < Config.copyRoom then
    match copyCandidate s with
    | some k =>
      match copyLeft s k, journalAt s.windows k with
      | some pos, some w => insertBlock k pos w.length s
      | _, _ => s
    | none => s
  else s

/-- BLOCK_INSERTION (R75). -/
def execBlockInsertion (s : State) : Host.Outcome State Fault Refusal := .next (close s (insertNext s))

/-- An apply slot that carries the merge read of the head entry, if that is what the apply class offers
(R107). -/
def mergeSlot (s : State) : State := if (nextMergeRead s).isSome then portSlot .apply s else s

/-- APPLY_MERGE_READ (R30, R107). -/
def execApplyMergeRead (s : State) : Host.Outcome State Fault Refusal := .next (close s (mergeSlot s))

/-- An apply slot that carries a write of the head entry, if that is what the apply class offers (R104, R109). -/
def writeSlot (s : State) : State := if (nextMergeRead s).isSome then s else portSlot .apply s

/-- APPLY_WORD_WRITE (R30, R104 to R109). -/
def execApplyWordWrite (s : State) : Host.Outcome State Fault Refusal := .next (close s (writeSlot s))

/-- A due step of the sync pass (R121). -/
def visitSync (s : State) : State := if syncVisitDue s then syncStep s else s

/-- SYNC_VISIT (R45, R121, R122, R124). -/
def execSyncVisit (s : State) : Host.Outcome State Fault Refusal := .next (close s (visitSync s))

/-- The completion of the sync where its condition holds (R126). -/
def finishSync (s : State) : State := if syncComplete s then completeSync s else s

/-- SYNC_COMPLETION (R126). -/
def execSyncCompletion (s : State) : Host.Outcome State Fault Refusal := .next (close s (finishSync s))

/-- A due step of the refresh pass (R130). -/
def visitRefresh (s : State) : State := if refreshStepsLeft s then refreshStep s else s

/-- REFRESH_VISIT (R44, R130). -/
def execRefreshVisit (s : State) : Host.Outcome State Fault Refusal := .next (close s (visitRefresh s))

/-- The end of a refresh pass that has made every visit, and the start of the next (R130). -/
def passEnd (s : State) : State := if refreshEnds s then nextRefresh s else s

/-- REFRESH_PASS_END (R130). -/
def execRefreshPassEnd (s : State) : Host.Outcome State Fault Refusal := .next (close s (passEnd s))

end Sys2Proof.Machine
end

