-- ==== Sys2Proof/Machine/RoleCommands.lean ====
section
/-! DEFINITION. The meanings of the Role Controller's events and of the status posting (chapters 8 and 9). -/

namespace Sys2Proof.Machine

/-- The sampled level of CLAIM_IN becomes `level` (R134, R141, R152). -/
def claimChanged (level : Bool) (s : State) : State :=
  judgeLost (s.onRc fun c => settleDual { c with claimIn := level })

/-- The level on CLAIM_IN as it is sampled: nothing where it stands (R134). -/
def levelSampled (level : Bool) (s : State) : State := if s.rc.claimIn = level then s else claimChanged level s

/-- CLAIM_IN_CHANGE (R134). -/
def execClaimInChange (asserted : Bool) (s : State) : Host.Outcome State Fault Refusal :=
  .next (takeEvent (levelSampled asserted) s)

/-- The dual-claim timer reaches 100 ms (R152). -/
def dualExpired (s : State) : State :=
  match s.rc.dual with
  | .running _ => judgeTakeover s (dualClaimDetected (s.onRc fun c => { c with dual := .expired }))
  | _ => s

/-- DUAL_CLAIM_TIMER_EXPIRY (R152). -/
def execDualClaimTimerExpiry (s : State) : Host.Outcome State Fault Refusal :=
  .next (takeEvent dualExpired s)

/-- The handoff timer expires before closing (R149). -/
def handoffExpired (s : State) : State :=
  if s.rc.role = .handoff ∧ s.rc.closing = false ∧ s.rc.handoff.isSome = true then
    handoffReturns .timeout s
  else s

/-- HANDOFF_TIMER_EXPIRY (R149). -/
def execHandoffTimerExpiry (s : State) : Host.Outcome State Fault Refusal :=
  .next (close s (handoffExpired s))

/-- The liveness timer expires (R156). -/
def livenessExpired (s : State) : State :=
  if s.rc.liveness.isSome then
    let s1 := raise .hostSilent (s.onRc fun c => { c with liveness := none })
    if s.csu.timing.livenessRelease then releaseIfHeld s1 else s1
  else s

/-- LIVENESS_EXPIRY (R156). -/
def execLivenessExpiry (s : State) : Host.Outcome State Fault Refusal := .next (takeEvent livenessExpired s)

/-- BCLK has shown no edge for 100 ticks, or longer by the count that runs: the memory port makes no cycle, and a
watched clock is LOST (R32, R157). -/
def clockLost (s : State) : State :=
  let s1 := s.onRc fun c => { c with bclkQuiet := some (max 100 (c.bclkQuiet.getD 0)) }
  if s.rc.busClock = .present then
    releaseIfHeld (raise .busClockLost (s1.onRc fun c => { c with busClock := .lost }))
  else s1

/-- BUS_CLOCK_LOST (R32, R157). -/
def execBusClockLost (s : State) : Host.Outcome State Fault Refusal := .next (takeEvent clockLost s)

/-- The monitor at an edge of BCLK: a LOST clock is PRESENT again (R157). -/
def edgeSeen (b : BusClock) : BusClock := if b = .lost then .present else b

/-- An edge of a BCLK that had stopped: BCLK runs, and an access that waited for its memory cycle is granted the
port (R27, R32, R157). -/
def clockReturned (s : State) : State :=
  let s1 := s.onRc fun c => { c with busClock := edgeSeen c.busClock, bclkQuiet := none }
  match s.bpt.held with
  | .port a => forward a (endHold s1)
  | _ => s1

/-- BUS_CLOCK_RETURN (R32, R157). -/
def execBusClockReturn (s : State) : Host.Outcome State Fault Refusal := .next (close s (clockReturned s))

/-- POSTING_TICK (R166). -/
def execPostingTick (s : State) : Host.Outcome State Fault Refusal :=
  .next (close s ((postCounts countWords s).onCsu fun c => { c with postClock := 0 }))

/-- STATUS_POSTING_WRITE (R30, R166, R167). -/
def execStatusPostingWrite (s : State) : Host.Outcome State Fault Refusal :=
  .next (close s (portSlot .status s))

end Sys2Proof.Machine
end

