-- ==== Sys2Proof/Machine/Dispatch.lean ====
section
/-! DEFINITION. The effect of each command on everything but the queue: one arm for each row of
spec/opcode_table.json, in the table's order. -/

namespace Sys2Proof.Machine

/-- The effect of a command, by the meaning of its row. -/
def exec (i : Instr) (s : State) : Host.Outcome State Fault Refusal :=
  match i with
  | .powerOnReset strapB => Sys2Proof.Machine.execPowerOnReset strapB s
  | .ordinaryAccess a => Sys2Proof.Machine.execOrdinaryAccess a s
  | .controlPageWrite w d c e => Sys2Proof.Machine.execControlPageWrite w d c e s
  | .statusPageWrite w d c e => Sys2Proof.Machine.execStatusPageWrite w d c e s
  | .recordWindowWrite a d c e => Sys2Proof.Machine.execRecordWindowWrite a d c e s
  | .journalWindowWrite a d c e => Sys2Proof.Machine.execJournalWindowWrite a d c e s
  | .journalStallRoom => Sys2Proof.Machine.execJournalStallRoom s
  | .journalStallExpiry => Sys2Proof.Machine.execJournalStallExpiry s
  | .windowRead a => Sys2Proof.Machine.execWindowRead a s
  | .heldReadRelease => Sys2Proof.Machine.execHeldReadRelease s
  | .livenessWrite d c e => Sys2Proof.Machine.execLivenessWrite d c e s
  | .noticeEnable d c e => Sys2Proof.Machine.execNoticeEnable d c e s
  | .noticeClear d c e => Sys2Proof.Machine.execNoticeClear d c e s
  | .defineWindow r c e => Sys2Proof.Machine.execDefineWindow r c e s
  | .clearWindow r c e => Sys2Proof.Machine.execClearWindow r c e s
  | .prolongedCommandCompletion => Sys2Proof.Machine.execProlongedCommandCompletion s
  | .setTiming r c e => Sys2Proof.Machine.execSetTiming r c e s
  | .start r c e => Sys2Proof.Machine.execStart r c e s
  | .stop r c e => Sys2Proof.Machine.execStop r c e s
  | .switchover r c e => Sys2Proof.Machine.execSwitchover r c e s
  | .takeOver r c e => Sys2Proof.Machine.execTakeOver r c e s
  | .release r c e => Sys2Proof.Machine.execRelease r c e s
  | .resume r c e => Sys2Proof.Machine.execResume r c e s
  | .resync r c e => Sys2Proof.Machine.execResync r c e s
  | .queryRecord r c e => Sys2Proof.Machine.execQueryRecord r c e s
  | .unknownCommand code r c e => Sys2Proof.Machine.execUnknownCommand code r c e s
  | .interfaceResetEnd => Sys2Proof.Machine.execInterfaceResetEnd s
  | .trainingByteReceived v x y => Sys2Proof.Machine.execTrainingByteReceived v x y s
  | .byteBetweenFrames v x y => Sys2Proof.Machine.execByteBetweenFrames v x y s
  | .receivedClockTimeout => Sys2Proof.Machine.execReceivedClockTimeout s
  | .helloStateTimeout => Sys2Proof.Machine.execHelloStateTimeout s
  | .helloInterval => Sys2Proof.Machine.execHelloInterval s
  | .frameTransmitStart => Sys2Proof.Machine.execFrameTransmitStart s
  | .helloTransmitted => Sys2Proof.Machine.execHelloTransmitted s
  | .helloReceived h => Sys2Proof.Machine.execHelloReceived h s
  | .heartbeatReceived h x => Sys2Proof.Machine.execHeartbeatReceived h x s
  | .ackReceived x => Sys2Proof.Machine.execAckReceived x s
  | .nakReceived x => Sys2Proof.Machine.execNakReceived x s
  | .sequencedFrameReceived f => Sys2Proof.Machine.execSequencedFrameReceived f s
  | .invalidFrame b x => Sys2Proof.Machine.execInvalidFrame b x s
  | .heartbeatPeriodBoundary => Sys2Proof.Machine.execHeartbeatPeriodBoundary s
  | .ackTimerExpiry => Sys2Proof.Machine.execAckTimerExpiry s
  | .sequenceClosedRetrain => Sys2Proof.Machine.execSequenceClosedRetrain s
  | .itemStart => Sys2Proof.Machine.execItemStart s
  | .readoutRead => Sys2Proof.Machine.execReadoutRead s
  | .copyStart k => Sys2Proof.Machine.execCopyStart k s
  | .blockInsertion => Sys2Proof.Machine.execBlockInsertion s
  | .applyMergeRead => Sys2Proof.Machine.execApplyMergeRead s
  | .applyWordWrite => Sys2Proof.Machine.execApplyWordWrite s
  | .syncVisit => Sys2Proof.Machine.execSyncVisit s
  | .syncCompletion => Sys2Proof.Machine.execSyncCompletion s
  | .refreshVisit => Sys2Proof.Machine.execRefreshVisit s
  | .refreshPassEnd => Sys2Proof.Machine.execRefreshPassEnd s
  | .claimInChange x => Sys2Proof.Machine.execClaimInChange x s
  | .dualClaimTimerExpiry => Sys2Proof.Machine.execDualClaimTimerExpiry s
  | .handoffTimerExpiry => Sys2Proof.Machine.execHandoffTimerExpiry s
  | .livenessExpiry => Sys2Proof.Machine.execLivenessExpiry s
  | .busClockLost => Sys2Proof.Machine.execBusClockLost s
  | .busClockReturn => Sys2Proof.Machine.execBusClockReturn s
  | .postingTick => Sys2Proof.Machine.execPostingTick s
  | .statusPostingWrite => Sys2Proof.Machine.execStatusPostingWrite s

end Sys2Proof.Machine
end

