-- ==== Sys2Proof/Machine/Time.lean ====
section
/-! DEFINITION. REFCLK ticks: the counters a tick advances, the events that have come due, and what the part
does while no command waits (log entry 1). -/

namespace Sys2Proof.Machine

/-! ## One tick -/

/-- A running count advanced by one tick; a stopped one stays stopped. -/
def tickOf (c : Option Nat) : Option Nat := c.map (· + 1)

/-- The hold of the current access over one tick: a stall counts tick boundaries (R26). -/
def Held.tick : Held → Held
  | .stall a n => .stall a (n + 1)
  | h => h

/-- The dual-claim timer over one tick (R152). -/
def DualTimer.tick : DualTimer → DualTimer
  | .running n => .running (n + 1)
  | d => d

/-- The running command over one tick (R160). -/
def Running.tick : Running → Running
  | .define k w n => .define k w (n + 1)
  | .clear k n => .clear k (n + 1)
  | .switchover => .switchover

/-- The sync pass is timed by its clock: PACED mode, with steps left. The clock stops at the last visit, where by R121
the pass has ended, and not D seconds after the start as R124 also says: DESIGN CHOICE (log entry 21). -/
def syncPaced (s : State) : Bool :=
  syncStepsLeft s &&
  match s.csu.timing.syncMode with
  | .paced _ => true
  | .demand _ => false

/-- One tick of REFCLK: every running timer and clock advances, and nothing else changes. -/
def tick (s : State) : State :=
  { s with
    bpt := { s.bpt with held := s.bpt.held.tick }
    disp := { s.disp with ackTimer := tickOf s.disp.ackTimer }
    link :=
      { s.link with
        resetTicks := tickOf s.link.resetTicks
        helloClock := if s.link.state = .hello then s.link.helloClock + 1 else s.link.helloClock
        helloAge := if s.link.state = .hello then s.link.helloAge + 1 else s.link.helloAge
        periodClock := tickOf s.link.periodClock }
    pass :=
      { s.pass with
        syncClock := if syncPaced s then s.pass.syncClock + 1 else s.pass.syncClock
        refreshClock := if s.pass.refreshing then s.pass.refreshClock + 1 else s.pass.refreshClock }
    rc :=
      { s.rc with
        dual := s.rc.dual.tick
        handoff := tickOf s.rc.handoff
        liveness := tickOf s.rc.liveness
        bclkQuiet := tickOf s.rc.bclkQuiet }
    csu :=
      { s.csu with
        running := s.csu.running.map Running.tick
        postClock := s.csu.postClock + 1 } }

/-! ## What has come due -/

/-- The event `c` if its condition `b` holds. -/
def dueIf (b : Bool) (c : Instr) : Option Instr := if b then some c else none

/-- A released read may have its slot (R29, R30). -/
def readFree (s : State) : Bool :=
  match s.bpt.held with
  | .read a => !covered s a
  | .port a => !a.write && clockRuns s
  | _ => false

/-- The stall has passed `n` tick boundaries (R26). -/
def stallReached (n : Nat) (s : State) : Bool :=
  match s.bpt.held with
  | .stall _ t => decide (n ≤ t)
  | _ => false

/-- A DESYNC window may begin its copy (R74). -/
def mayBegin (s : State) (k : Slot) : Bool :=
  decide (s.journals.states[k] = some .desync) && mayCopy s && !holdsBlock k s.journals.queue

/-- The lowest-numbered window whose copy may begin (R74). -/
def copyDue (s : State) : Option Slot := allSlots.find? (mayBegin s)

/-- A BLOCK entry may be inserted (R75). -/
def insertionDue (s : State) : Bool :=
  decide (s.journals.queue.length < Config.copyRoom) && (copyCandidate s).isSome

/-- A sync visit has come due by the mode in force (R122, R124). -/
def syncClockDue (s : State) : Bool :=
  syncVisitDue s &&
  match s.csu.timing.syncMode with
  | .demand _ => true
  | .paced d =>
    decide (visitOffset (totalRecords s.windows) (syncTicks d) s.pass.syncPos ≤ s.pass.syncClock)

/-- A refresh visit has come due (R130). -/
def refreshClockDue (s : State) : Bool :=
  refreshStepsLeft s &&
  decide (visitOffset (refreshTotal s.windows) (refreshTicks s) s.pass.refreshPos ≤ s.pass.refreshClock)

/-- The dual-claim timer has reached 100 ms (R152). -/
def dualReached (s : State) : Bool :=
  match s.rc.dual with
  | .running n => decide (100000 ≤ n)
  | _ => false

/-- The prolonged command has run for 1,000 ticks, the latest moment of its completion (R160). -/
def prolongedReached (s : State) : Bool :=
  match s.csu.running with
  | some (.define _ _ n) => decide (1000 ≤ n)
  | some (.clear _ n) => decide (1000 ≤ n)
  | _ => false

/-- The handoff timer runs and the closing sub-state is clear (R149). -/
def handoffTiming (s : State) : Bool :=
  decide (s.rc.role = .handoff ∧ s.rc.closing = false) && s.rc.handoff.isSome

/-- The request of the memory port that a slot would carry now, as its command (R30). -/
def portDue (s : State) : Option Instr :=
  if clockRuns s then
    match nextClass s with
    | some .apply => some (if (nextMergeRead s).isSome then .applyMergeRead else .applyWordWrite)
    | some .readout => some .readoutRead
    | some .status => some .statusPostingWrite
    | none => none
  else none

/-- The first event that has come due, in the fixed order of log entry 1: what follows at once from the state,
then what the clocks and timers have reached, then the memory port. -/
def dueNow (s : State) : Option Instr :=
  let t := s.csu.timing
  dueIf (readFree s) .heldReadRelease
  |>.or (dueIf (stallHasRoom s) .journalStallRoom)
  |>.or (dueIf (closedRetrainDue s) .sequenceClosedRetrain)
  |>.or ((copyDue s).map .copyStart)
  |>.or (dueIf (insertionDue s) .blockInsertion)
  |>.or (dueIf (syncComplete s) .syncCompletion)
  |>.or (dueIf (chooseItem s).isSome .itemStart)
  |>.or (dueIf (syncClockDue s) .syncVisit)
  |>.or (dueIf (refreshClockDue s) .refreshVisit)
  |>.or (dueIf (refreshEnds s && decide (refreshTicks s ≤ s.pass.refreshClock)) .refreshPassEnd)
  |>.or (dueIf (stallReached 16 s) .journalStallExpiry)
  |>.or (dueIf (reached s.link.resetTicks 10) .interfaceResetEnd)
  |>.or (dueIf (decide (s.link.state = .hello ∧ s.link.helloWaiting = false ∧ 1000 ≤ s.link.helloClock))
      .helloInterval)
  |>.or (dueIf (decide (s.link.state = .hello ∧ 1000 * (t.missLimit * t.heartbeatMs) ≤ s.link.helloAge))
      .helloStateTimeout)
  |>.or (dueIf (boundaryDue s) .heartbeatPeriodBoundary)
  |>.or (dueIf (reached s.disp.ackTimer 1000) .ackTimerExpiry)
  |>.or (dueIf (dualReached s) .dualClaimTimerExpiry)
  |>.or (dueIf (handoffTiming s && reached s.rc.handoff (1000 * s.rc.handoffMs)) .handoffTimerExpiry)
  |>.or (dueIf (reached s.rc.liveness (1000 * t.livenessMs)) .livenessExpiry)
  |>.or (dueIf (decide (s.rc.busClock = .present) && reached s.rc.bclkQuiet 100) .busClockLost)
  |>.or (dueIf (decide (1000 ≤ s.csu.postClock)) .postingTick)
  |>.or (dueIf (prolongedReached s) .prolongedCommandCompletion)
  |>.or (portDue s)

/-- The access that waited longest behind a hold that has ended is taken (R16). -/
def takeWaiting (s : State) : Option State :=
  match s.bpt.waiting with
  | a :: rest =>
    if busBlocked s then none else some (takeAccess a (s.onBpt fun b => { b with waiting := rest }))
  | [] => none

end Sys2Proof.Machine
end

