-- ==== Sys2Proof/Machine/Idle.lean ====
section
/-! DEFINITION. What a step does on an empty queue (log entry 1). -/

namespace Sys2Proof.Machine

/-- What the part does while no command waits: an access behind an ended hold is taken, else an event that
has come due, else one tick of REFCLK passes (log entry 1). -/
def idle (s : State) : Host.Outcome State Fault Refusal :=
  match takeWaiting s with
  | some t => .next t
  | none =>
    match dueNow s with
    | some c => exec c s
    | none => .next (tick s)

end Sys2Proof.Machine
end

