-- ==== Sys2Proof/Safety.lean ====
section
/-! DEFINITION. What a safe state is: the laws the manual states of the whole device, which every step keeps. -/

namespace Sys2Proof.Machine

/-! ## What a statement of a command's effect looks at -/

/-- The state without what the close of a step settles by itself: the offered requests and the waiting count
(R31), the posting queue with the result hold (R166, R167), and INT_N (R171). Two states equal under this view
agree on every register, list, counter and mode of every block, and on every word of the SSRAM. -/
def State.unreported (s : State) : State :=
  { s with
    bpt := { s.bpt with offers := [], waitCount := 0 }
    csu := { s.csu with postQueue := [], resultHold := none, intHigh := true } }

/-- An access presented now is taken now (R16, R32). -/
def BusOpen (s : State) : Prop := s.bpt.held = .none ∧ s.bpt.waiting = [] ∧ s.rc.bclkQuiet = none

/-- An access presented now is taken now, and granted the port without the slot of the waiting rule (R16, R31,
R32). -/
def BusFree (s : State) : Prop := BusOpen s ∧ s.bpt.waitCount < 32

/-- The link of `s` after a valid frame has arrived between frames and has counted for supervision (R81, R82, R100): for the
running heartbeat period while that has lasted less than H, and from then on, the boundary that ends it being due, for the
period that begins there (R99, R102, log entry 32). -/
def State.frameCounted (s : State) : Link :=
  let due : Bool :=
    match s.link.periodClock with
    | some n => decide (1000 * s.csu.timing.heartbeatMs ≤ n)
    | none => false
  { s.link with
    strayBytes := 0
    frameInPeriod := s.link.frameInPeriod || !due
    frameAtBoundary := s.link.frameAtBoundary || due }

/-- The state `s` with the write of control page word 0 that gave the command `code`, and with the command's
completion: the shadow merged (R18), the word in memory (R16), the result word with DONE set, COMMAND_DONE and an
idle CSU (R160). -/
def answered (code : Byte) (rest : BitVec 56) (check : Byte) (enables : BitVec 7) (r : ResultCode) (field : Nat)
    (s : State) : State :=
  { s with
    bpt :=
      { s.bpt with
        shadow := s.bpt.shadow.set 0 (mergeBytes s.bpt.shadow[0] (rest ++ code) (enables ++ 1#1)) }
    csu :=
      { s.csu with
        running := none
        result := { code := code, result := r, field := BitVec.ofNat 32 field, done := true }
        pendingSet := s.csu.pendingSet ||| Notice.commandDone.mask }
    mem := memDrive s.mem (commandAccess code rest check enables) }

/-- The same, for a command that goes on running as `running`: its intake result with DONE clear (R159). -/
def takenIn (code : Byte) (rest : BitVec 56) (check : Byte) (enables : BitVec 7) (running : Running) (s : State) :
    State :=
  { s with
    bpt :=
      { s.bpt with
        shadow := s.bpt.shadow.set 0 (mergeBytes s.bpt.shadow[0] (rest ++ code) (enables ++ 1#1)) }
    csu :=
      { s.csu with
        running := some running
        result := { code := code, result := .ok, field := 0, done := false } }
    mem := memDrive s.mem (commandAccess code rest check enables) }

/-- The local unit is the winner of R142, by its table: over a RELEASED peer, over a STANDBY peer when it alone is in
sync, and as unit A where both or neither are. Over a peer in INIT, which the table has no row for, it is not: the model's
choice (log entry 29). -/
def wins (unit : UnitId) (mine : SyncState) (peer : PeerRecord) : Bool :=
  decide (peer.role = .released ∨
    (peer.role = .standby ∧
      ((mine = .inSync ∧ peer.sync ≠ .inSync) ∨ ((mine = .inSync ↔ peer.sync = .inSync) ∧ unit = .a))))

/-- What the no-active rule makes of the command `c` on `s`, where the command but for the rule leaves `u` (R142, R144,
R145): the winner in AUTO mode goes to TAKEOVER, and on to ACTIVE with an empty apply queue; in NOTIFY mode it raises
NO_ACTIVE; the loser does nothing. -/
def NoActiveJudged (c : Instr) (s u : State) : Prop :=
  let winner : Bool := wins u.rc.unit u.rc.sync u.link.peer
  let auto : Bool := s.csu.timing.takeoverAuto
  ∃ t, exec c s = .next t ∧ t.link = u.link ∧ t.apply = u.apply ∧ t.windows = u.windows ∧ t.mem = u.mem ∧
    (winner = true → auto = true → u.apply.queue = [] →
      t.rc = { u.rc with
        role := .active, claimOut := true, dual := if u.rc.claimIn then .running 0 else .stopped
        epoch := maxEpoch u.rc.epoch u.link.peer.epoch + 1 }) ∧
    (winner = true → auto = true → u.apply.queue ≠ [] →
      t.rc = { u.rc with role := .takeover, claimOut := false, dual := .stopped }) ∧
    (winner = false ∨ auto = false → t.rc = u.rc) ∧
    t.csu.pendingSet.getLsbD Notice.noActive.bit =
      (s.csu.pendingSet.getLsbD Notice.noActive.bit || (winner && !auto))

/-! ## Laws -/

/-- The offered part requests are those the classes offer, each listed once, and the waiting count is 0 while there is none
(R30, R31). -/
def OffersLaw (s : State) : Prop :=
  s.bpt.offers.Nodup ∧ (∀ o, o ∈ s.bpt.offers ↔ o ∈ currentOffers s) ∧ (currentOffers s = [] → s.bpt.waitCount = 0)

/-- The SSRAM's list is in its canonical form. -/
def MemoryLaw (s : State) : Prop := Memory.wf s.mem = true

/-- The Record Tag Store's list is in its canonical form. -/
def TagForm (s : State) : Prop := sparseWf (⟨.clean, true⟩ : Tag) s.rts.tags = true

/-- CLAIM_OUT is driven exactly in ACTIVE and HANDOFF (R134), and the dual-claim timer is stopped exactly when
one of the two claims is missing (R152). -/
def ClaimLaw (s : State) : Prop :=
  s.rc.claimOut = claims s.rc.role ∧
  (s.rc.dual = .stopped ↔ (claims s.rc.role && s.rc.claimIn) = false)

/-- INT_N is low exactly while some kind is both pending and enabled (R171). -/
def InterruptLaw (s : State) : Prop := s.csu.intHigh = intLevel s.csu

/-- A stalled access is a write that is captured, to a journal window whose writes are queued: anything else
resolves the stall in the step that brings it (R26, R27). -/
def StallLaw (s : State) : Prop :=
  ∀ a n, s.bpt.held = .stall a n →
    a.write = true ∧ captures s.rc = true ∧ queuesWrites (stallState s a) = true

/-- A read is held only while an entry of the apply queue covers it (R28, R29). -/
def ReadLaw (s : State) : Prop := ∀ a, s.bpt.held = .read a → covered s a = true

/-- A stalled access is a captured journal write for which no room has appeared, so that an event of R27 that is taken now
resolves it. Where room has appeared, the room is taken first (R26, R72). -/
def StallStands (s : State) : Prop := StallLaw s ∧ stallHasRoom s = false

/-- A frame is being sent only in HELLO and UP: in the other states the transmitter sends no frame (R56, R79, R80, R84). -/
def SendingLaw (s : State) : Prop := s.link.sending ≠ none → s.link.state = .hello ∨ s.link.state = .up

/-- The peer view is PAIRED exactly while the link is UP (R85, R86, R101). -/
def LinkLaw (s : State) : Prop := s.link.view = .paired ↔ s.link.state = .up

/-- The counts and lists stay within the rooms the manual gives them (R31, R65, R71, R103, R166). -/
def RoomLaw (s : State) : Prop :=
  s.bpt.waitCount ≤ 32 ∧ s.disp.inFlight.length ≤ 16 ∧ s.journals.queue.length ≤ 128 ∧
  s.apply.queue.length ≤ 16 ∧ (s.csu.postQueue.map (·.word)).Nodup ∧
  ∀ p ∈ s.csu.postQueue, p.word < 64

/-- A state word that is pending is pending at its present value (R166). -/
def PostedLaw (s : State) : Prop :=
  ∀ w ∈ stateWords, ∀ v, pendingValue w s.csu.postQueue = some v → v = statusWord s w

/-- A DEFINE_WINDOW or CLEAR_WINDOW runs (R160). -/
def tableCommandRuns (c : Csu) : Bool :=
  match c.running with
  | some (.define _ _ _) => true
  | some (.clear _ _) => true
  | _ => false

/-- What the role says of the other blocks: the closing sub-state belongs to HANDOFF (R133), a SWITCHOVER runs
exactly in HANDOFF (R146, R154), a window command runs only in INIT (R5, R11), the link is OFF exactly in INIT
(R79), a full sync, a refresh pass and in-flight entries exist only in a claiming role (R57, R128, R131), every tag is
CLEAN with its mark set in the other roles (R55), the in-flight list is empty while the link is not UP (R69), the
apply queue is empty outside STANDBY and TAKEOVER (R104), and a LOST bus clock has stopped (R157). -/
structure RoleLaw (s : State) : Prop where
  claim    : ClaimLaw s
  closing  : s.rc.closing = true → s.rc.role = .handoff
  handoff  : s.rc.role = .handoff ↔ s.csu.running = some .switchover
  table    : tableCommandRuns s.csu = true → s.rc.role = .init
  off      : s.link.state = .off ↔ s.rc.role = .init
  sync     : s.pass.phase ≠ .none → claims s.rc.role = true
  refresh  : s.pass.refreshing = true → claims s.rc.role = true
  tags     : claims s.rc.role = false → s.rts.tags = []
  inFlight : s.disp.inFlight ≠ [] → claims s.rc.role = true ∧ s.link.state = .up
  apply    : s.apply.queue ≠ [] → applies s.rc.role = true
  clock    : s.rc.busClock = .lost → s.rc.bclkQuiet ≠ none

/-- A window within its ranges, below the two pages (R1, R6 to R8). -/
def Window.legal : Window → Prop
  | .none => True
  | .record w =>
    (w.size = 4 ∨ w.size = 8 ∨ w.size = 16) ∧ 1 ≤ w.count ∧ w.count ≤ 65536 ∧ w.base % w.size = 0 ∧
    w.stateWord < w.size ∧ w.volatileSet >>> w.size = 0 ∧ w.volatileSet.getLsbD w.stateWord = false ∧
    w.base + w.size * w.count ≤ Config.statusBase
  | .journal w =>
    w.length % 4 = 0 ∧ 4 ≤ w.length ∧ w.length ≤ 8192 ∧ w.base % 4 = 0 ∧
    w.base + w.length ≤ Config.statusBase

/-- Every RECORD slot's tag base is the sum of N over the RECORD slots below it (R3). -/
def BasesLaw (t : Vector Window 8) : Prop :=
  ∀ k : Slot, ∀ w : RecordWindow, recordAt t k = some w → w.tagBase = tagBaseOf t k

/-- Defined windows are legal and never overlap one another or the two pages, the record counts sum to at most
65,536, and the tag bases are those of R3 (R8, R9). -/
structure TableLaw (t : Vector Window 8) : Prop where
  legal   : ∀ k : Slot, (t[k]).legal
  apart   : ∀ i j : Slot, i ≠ j → (t[i]).overlaps t[j] = false
  records : totalRecords t ≤ Config.tagRoom
  bases   : BasesLaw t

/-- The table keeps its law, now and when the running window command completes (R9, R10, R11). -/
def WindowLaw (s : State) : Prop :=
  TableLaw s.windows ∧
  match s.csu.running with
  | some (.define k w _) => TableLaw (replaceSlot s.windows k w)
  | _ => True

/-- The number of tags whose covered mark is clear. -/
def clearCount (r : Rts) : Nat := (r.tags.filter fun e => !e.2.covered).length

/-- While a full sync is in progress, U equals the number of tags whose covered mark is clear; at all other
times U is 0 (R52). -/
def CoverLaw (s : State) : Prop :=
  TagForm s ∧ s.rts.outstanding = if s.pass.phase = .none then 0 else clearCount s.rts

/-- The flight family (R35). -/
def inFamily : TagState → Bool
  | .flight => true
  | .flightStale => true
  | .flightDirty => true
  | _ => false

/-- The tag of the record an in-flight entry carries. -/
def entryTag (t : Vector Window 8) (e : InFlight) : Option Nat :=
  match e.item with
  | .record k i => (recordAt t k).map fun w => w.tagBase + i
  | _ => none

/-- The tags of the RECORD entries of the in-flight list. -/
def entryTags (s : State) : List Nat := s.disp.inFlight.filterMap (entryTag s.windows)

/-- A record has an entry in the in-flight list exactly when its tag is in the flight family, and never more
than one (R40). -/
structure FlightLaw (s : State) : Prop where
  form   : TagForm s
  bases  : BasesLaw s.windows
  inUse  : ∀ n ∈ entryTags s, n < totalRecords s.windows
  once   : (entryTags s).Nodup
  flying : ∀ n ∈ entryTags s, inFamily (tagAt s.rts n).state = true
  listed : ∀ p ∈ s.rts.tags, inFamily p.2.state = true → p.1 ∈ entryTags s

/-- The in-flight entries carry consecutive sequence numbers that end one before the next to assign, and the
transmitted ones form the front (R65). -/
structure SequenceLaw (s : State) : Prop where
  room     : s.disp.inFlight.length ≤ 16
  numbered : ∀ i, ∀ h : i < s.disp.inFlight.length,
    s.disp.inFlight[i].seq = s.link.nextSeq - BitVec.ofNat 16 (s.disp.inFlight.length - i)
  front    : ∀ i j, ∀ hj : j < s.disp.inFlight.length, ∀ hi : i < j,
    s.disp.inFlight[j].transmitted = true → (s.disp.inFlight[i]'(by omega)).transmitted = true

/-- The readout item `x` is the item `i` itself: a record at an index below its window's N, or a block (R60, R65). -/
def readsItem (t : Vector Window 8) (i : Item) (x : ReadItem) : Prop :=
  match i with
  | .record k j => x = .record k j ∧ ∃ w, recordAt t k = some w ∧ j < w.count
  | .journal (.block k f _) => x = .block k f
  | _ => False

/-- A readout slot that an in-flight entry names is occupied for that entry and reads its item, and an occupied slot is
named by an entry (R60, R65). -/
structure ReadoutLaw (s : State) : Prop where
  named : ∀ e ∈ s.disp.inFlight, ∀ r : Fin 4, e.readout = some r →
    ∃ x, s.disp.readouts[r] = some x ∧ x.seq = e.seq ∧ readsItem s.windows e.item x.item
  owned : ∀ r : Fin 4, s.disp.readouts[r] ≠ none → ∃ e ∈ s.disp.inFlight, e.readout = some r

/-- The Journal Queue entry an in-flight entry carries. -/
def InFlight.journalEntry (e : InFlight) : Option JournalEntry :=
  match e.item with
  | .journal x => some x
  | _ => none

/-- The JOURNAL entries of the in-flight list are the front of the Journal Queue, in order, and exactly they are
marked sent (R71). -/
def JournalLaw (s : State) : Prop :=
  let sent := s.disp.inFlight.filterMap InFlight.journalEntry
  (s.journals.queue.take sent.length).map (·.entry) = sent ∧
  ∀ i, ∀ h : i < s.journals.queue.length, s.journals.queue[i].sent = decide (i < sent.length)

/-! ## What the completion of an apply-queue entry leaves -/

/-- The effect of the completion of the entry `f` by itself, on a STANDBY or TAKEOVER part: A is one above its sequence
number (R109), an ACK waits in UP where that is not the A last carried (R110), and each kind has its own effect (R106 to
R108, R111 to R113). A HANDOVER moves a STANDBY part to TAKEOVER, and a TAKEOVER part stays (R113, R137, R144). -/
def entryApplied (s : State) (f : SeqFrame) : State :=
  let u : State := { s with
    link := { s.link with
      ackWaiting := s.link.ackWaiting || decide (s.link.state = .up ∧ f.seq + 1 ≠ s.apply.lastAck) }
    apply := { s.apply with applied := f.seq + 1 } }
  let raised (n : Notice) : BitVec 16 := s.csu.pendingSet ||| n.mask
  match f.body with
  | .record _ _ _ => u
  | .tombstone _ _ => u
  | .discard k i =>
    { u with csu := { s.csu with discard := ⟨.record, k, i.toNat⟩, pendingSet := raised .recordDiscarded } }
  | .journalWord k o m _ =>
    { u with
      apply := { u.apply with counts := s.apply.counts.set k (s.apply.counts[k] + 1) }
      csu :=
        if m ≠ 0 ∧ m ≠ 0xFF ∧ s.apply.merged.map Prod.snd = some .uncorrectable then
          { s.csu with discard := ⟨.journalWord, k, o.toNat⟩, pendingSet := raised .recordDiscarded }
        else s.csu }
  | .journalBlock _ _ copyLast _ _ _ _ =>
    if copyLast then { u with csu := { s.csu with pendingSet := raised .journalRecopied } } else u
  | .syncBegin => { u with rc := { s.rc with sync := .syncing } }
  | .syncDone g =>
    { u with
      rc := { s.rc with sync := .inSync }
      pass := { s.pass with gen := g }
      csu := { s.csu with pendingSet := raised .syncDone } }
  | .handover e =>
    let v : State := { u with link := { u.link with peer := { s.link.peer with epoch := e } } }
    if s.rc.role = .standby then
      { v with
        rc := { s.rc with role := .takeover, claimOut := false, dual := .stopped, epoch := maxEpoch s.rc.epoch e }
        csu := { s.csu with pendingSet := raised .roleChanged } }
    else v

/-- The state after the completion of the head of the apply queue of `s`, where `u` is `s` with that entry's effect and `rest`
stands behind it. The control entries and the words without bytes at the front of `rest` complete in the same step, one
after another (R104, R107, R112, R113); a held read that the entries left do not cover is released (R29); in HELLO an empty
queue sets the seen flag (R83). -/
def headDone (s u : State) (rest : List SeqFrame) : State :=
  let left : List SeqFrame := rest.dropWhile fun g => immediate g.body
  let v : State := (rest.takeWhile fun g => immediate g.body).foldl entryApplied u
  { v with
    bpt := { v.bpt with
      held := match s.bpt.held with
        | .read x =>
          if covered s x && !left.any fun g => coversAddr s.windows x.toNat g.body then .port ⟨false, x, 0, 0, 0⟩
          else .read x
        | h => h }
    apply := { v.apply with queue := left, written := 0, merged := none }
    link := { v.link with
      seen := v.link.seen || decide (v.link.state = .hello ∧ v.link.helloPassed = true ∧ left = []) } }

/-- What the command `c` makes of `s`, where it completes the head of the apply queue and leaves `w` but for what follows: a
change of the sync state beside a PAIRED peer that claims nothing brings the no-active rule (R142), judged once with what
the step leaves, and a TAKEOVER part with an empty queue is promoted (R116, R144, R145). -/
def HeadLeaves (c : Instr) (s w : State) : Prop :=
  let judged : Prop := s.link.view = .paired ∧ s.link.peer.role ≠ .active ∧ s.link.peer.role ≠ .handoff ∧
    s.link.peer.role ≠ .takeover ∧ w.rc.sync ≠ s.rc.sync
  (w.rc.role = .standby → judged → NoActiveJudged c s w) ∧
  (w.rc.role = .standby ∧ ¬ judged ∨ w.rc.role = .takeover ∧ w.apply.queue ≠ [] →
    ∃ t, exec c s = .next t ∧ t.unreported = w.unreported) ∧
  (w.rc.role = .takeover → w.apply.queue = [] → ClaimLaw s →
    ∃ t, exec c s = .next t ∧
      t.rc = { w.rc with
        role := .active, claimOut := true, dual := if w.rc.claimIn then .running 0 else .stopped
        epoch := maxEpoch w.rc.epoch w.link.peer.epoch + 1 } ∧
      t.link = w.link ∧ t.apply = w.apply ∧ t.mem = w.mem ∧ t.windows = w.windows ∧ t.bpt.held = w.bpt.held ∧
      t.pass.gen = w.pass.gen ∧ t.csu.discard = w.csu.discard ∧ t.csu.running = w.csu.running ∧
      t.csu.result = w.csu.result ∧
      (∀ i, w.csu.pendingSet.getLsbD i = true → t.csu.pendingSet.getLsbD i = true) ∧
      t.csu.pendingSet.getLsbD Notice.roleChanged.bit = true)

end Sys2Proof.Machine
end

