-- ==== Sys2Proof/WellFormed.lean ====
section
/-! DEFINITION. When a command is an instance of its own row: the row's operands stand where the row says.
The machine runs every command whatever this says; a write outside its row's region is decoded by its address
all the same (R17). -/

namespace Sys2Proof

open Sys2Proof.Machine

/-- A write of control page word `w` with these byte enables has no row of its own: it is no liveness, notice
enable or notice clear write, and no write of word 0 that drives a new command code (R18, R19). -/
def plainControlWrite (w : BitVec 6) (enables : Byte) : Bool :=
  decide (enables = 0) || (decide (w ≠ 8 ∧ w ≠ 9 ∧ w ≠ 10) && !(decide (w = 0) && enables.getLsbD 0))

/-- The address lies below the two pages. -/
def belowPages (a : Addr) : Bool := decide (a.toNat < Config.statusBase)

/-- A RECORD frame carries 4, 8 or 16 words (R88); the other frames have fixed lengths. -/
def SeqBody.sized : SeqBody → Bool
  | .record _ _ ws => decide (ws.length = 4 ∨ ws.length = 8 ∨ ws.length = 16)
  | _ => true

/-- The command is an instance of its row. -/
def Instr.wf : Instr → Bool
  | .powerOnReset _ => true
  | .ordinaryAccess a => !a.write || belowPages a.addr
  | .controlPageWrite w _ _ e => plainControlWrite w e
  | .statusPageWrite _ _ _ _ => true
  | .recordWindowWrite a _ _ _ => belowPages a
  | .journalWindowWrite a _ _ _ => belowPages a
  | .journalStallRoom => true
  | .journalStallExpiry => true
  | .windowRead a => belowPages a
  | .heldReadRelease => true
  | .livenessWrite _ _ e => decide (e ≠ 0)
  | .noticeEnable _ _ e => decide (e ≠ 0)
  | .noticeClear _ _ e => decide (e ≠ 0)
  | .defineWindow _ _ _ => true
  | .clearWindow _ _ _ => true
  | .prolongedCommandCompletion => true
  | .setTiming _ _ _ => true
  | .start _ _ _ => true
  | .stop _ _ _ => true
  | .switchover _ _ _ => true
  | .takeOver _ _ _ => true
  | .release _ _ _ => true
  | .resume _ _ _ => true
  | .resync _ _ _ => true
  | .queryRecord _ _ _ => true
  | .unknownCommand c _ _ _ => decide (commandOf c = none)
  | .interfaceResetEnd => true
  | .trainingByteReceived _ _ _ => true
  | .byteBetweenFrames _ _ _ => true
  | .receivedClockTimeout => true
  | .helloStateTimeout => true
  | .helloInterval => true
  | .frameTransmitStart => true
  | .helloTransmitted => true
  | .helloReceived _ => true
  | .heartbeatReceived _ _ => true
  | .ackReceived _ => true
  | .nakReceived _ => true
  | .sequencedFrameReceived f => f.body.sized
  | .invalidFrame b _ => decide (b ≠ [])
  | .heartbeatPeriodBoundary => true
  | .ackTimerExpiry => true
  | .sequenceClosedRetrain => true
  | .itemStart => true
  | .readoutRead => true
  | .copyStart _ => true
  | .blockInsertion => true
  | .applyMergeRead => true
  | .applyWordWrite => true
  | .syncVisit => true
  | .syncCompletion => true
  | .refreshVisit => true
  | .refreshPassEnd => true
  | .claimInChange _ => true
  | .dualClaimTimerExpiry => true
  | .handoffTimerExpiry => true
  | .livenessExpiry => true
  | .busClockLost => true
  | .busClockReturn => true
  | .postingTick => true
  | .statusPostingWrite => true

end Sys2Proof
end

