-- ==== Sys2Proof/Certificates/Slice0/Obligations.lean ====
section
/-! DEFINITION. The statements for the provers, from the manual's numbered rules, block by block. -/

open Sys2Proof Sys2Proof.Machine

/-! ## The queue of commands and the step -/

/-- A step with a command at the front of the queue is that command's `exec` on the state with the queue's
rest. The queue is the model's (log entry 1). -/
def Obligations.StepRunsFront : Prop :=
  ∀ (c : Instr) (rest : List Instr) (s : State), s.pending = c :: rest →
    step s = exec c { s with pending := rest }

/-- A step on an empty queue: the access that waits behind an ended hold is taken, else the first event that
has come due runs, else one tick passes. That a step does so is the model's choice (log entries 1 and 5). A timed event has
come due only when its time has passed: 1,000 ticks for the ack timer, the HELLO interval and the posting tick, 16 tick
boundaries for a stall without room, 100,000 ticks for two claims, 1,000 for each ms of the handoff, of the liveness limit,
of the heartbeat period, of the M periods a HELLO state lasts and of a refresh pass, 10 for the interface reset, 100
without an edge of BCLK, and the offset of its step for a PACED sync visit and a refresh visit (R26, R68, R80, R83, R99,
R122, R124, R130, R149, R152, R156, R157, R166), and no tick passes once it has. That a window command has come due at
1,000 ticks, the latest moment R160 allows, is log entry 20's choice. One tick advances every running timer and clock by 1
and changes nothing else. That the sync clock runs in PACED mode to the last visit, and not to the end of the D seconds, is
log entry 21's choice. -/
def Obligations.IdleStep : Prop :=
  (∀ s : State, s.pending = [] →
    (∀ t, takeWaiting s = some t → step s = .next t) ∧
    (∀ c, takeWaiting s = none → dueNow s = some c → step s = exec c s) ∧
    (takeWaiting s = none → dueNow s = none → step s = .next (tick s))) ∧
  (∀ s : State,
    let t := s.csu.timing
    (dueNow s = some .ackTimerExpiry → ∃ n, s.disp.ackTimer = some n ∧ 1000 ≤ n) ∧
    (dueNow s = some .journalStallExpiry → ∃ a n, s.bpt.held = .stall a n ∧ 16 ≤ n ∧ stallHasRoom s = false) ∧
    (dueNow s = some .dualClaimTimerExpiry → ∃ n, s.rc.dual = .running n ∧ 100000 ≤ n) ∧
    (dueNow s = some .handoffTimerExpiry → s.rc.role = .handoff ∧ s.rc.closing = false ∧
      ∃ n, s.rc.handoff = some n ∧ 1000 * s.rc.handoffMs ≤ n) ∧
    (dueNow s = some .livenessExpiry → ∃ n, s.rc.liveness = some n ∧ 1000 * t.livenessMs ≤ n) ∧
    (dueNow s = some .heartbeatPeriodBoundary → ∃ n, s.link.periodClock = some n ∧ 1000 * t.heartbeatMs ≤ n) ∧
    (dueNow s = some .helloStateTimeout →
      s.link.state = .hello ∧ 1000 * (t.missLimit * t.heartbeatMs) ≤ s.link.helloAge) ∧
    (dueNow s = some .helloInterval →
      s.link.state = .hello ∧ s.link.helloWaiting = false ∧ 1000 ≤ s.link.helloClock) ∧
    (dueNow s = some .interfaceResetEnd → ∃ n, s.link.resetTicks = some n ∧ 10 ≤ n) ∧
    (dueNow s = some .postingTick → 1000 ≤ s.csu.postClock) ∧
    (dueNow s = some .busClockLost → s.rc.busClock = .present ∧ ∃ n, s.rc.bclkQuiet = some n ∧ 100 ≤ n) ∧
    (dueNow s = some .prolongedCommandCompletion → ∃ n, 1000 ≤ n ∧
      ((∃ k w, s.csu.running = some (.define k w n)) ∨ ∃ k, s.csu.running = some (.clear k n))) ∧
    (dueNow s = some .syncVisit → s.pass.phase = .passing ∧ s.pass.syncPos < totalRecords s.windows ∧
      ((∃ b, t.syncMode = .demand b ∧ dirtyTotal s.rts + flightTotal s.rts < b) ∨
        ∃ d, t.syncMode = .paced d ∧
          visitOffset (totalRecords s.windows) (1000000 * d) s.pass.syncPos ≤ s.pass.syncClock)) ∧
    (dueNow s = some .refreshVisit → s.pass.refreshing = true ∧ s.pass.refreshPos < refreshTotal s.windows ∧
      visitOffset (refreshTotal s.windows) (1000 * t.refreshMs) s.pass.refreshPos ≤ s.pass.refreshClock) ∧
    (dueNow s = some .refreshPassEnd → s.pass.refreshing = true ∧ refreshTotal s.windows ≤ s.pass.refreshPos ∧
      1000 * t.refreshMs ≤ s.pass.refreshClock) ∧
    (dueNow s = none →
      (s.pass.phase = .passing → s.pass.syncPos < totalRecords s.windows →
        (∀ b, t.syncMode = .demand b → b ≤ dirtyTotal s.rts + flightTotal s.rts) ∧
        ∀ d, t.syncMode = .paced d →
          s.pass.syncClock < visitOffset (totalRecords s.windows) (1000000 * d) s.pass.syncPos) ∧
      (s.pass.refreshing = true →
        (s.pass.refreshPos < refreshTotal s.windows → s.pass.refreshClock <
          visitOffset (refreshTotal s.windows) (1000 * t.refreshMs) s.pass.refreshPos) ∧
        (refreshTotal s.windows ≤ s.pass.refreshPos → s.pass.refreshClock < 1000 * t.refreshMs)) ∧
      (∀ n, s.disp.ackTimer = some n → n < 1000) ∧ (∀ a n, s.bpt.held = .stall a n → n < 16) ∧
      (∀ n, s.rc.dual = .running n → n < 100000) ∧
      (∀ n, s.rc.role = .handoff → s.rc.closing = false → s.rc.handoff = some n → n < 1000 * s.rc.handoffMs) ∧
      (∀ n, s.rc.liveness = some n → n < 1000 * t.livenessMs) ∧
      (∀ n, s.link.periodClock = some n → n < 1000 * t.heartbeatMs) ∧
      (s.link.state = .hello → s.link.helloAge < 1000 * (t.missLimit * t.heartbeatMs) ∧
        (s.link.helloWaiting = false → s.link.helloClock < 1000)) ∧
      (∀ n, s.link.resetTicks = some n → n < 10) ∧ s.csu.postClock < 1000 ∧
      (∀ n, s.rc.busClock = .present → s.rc.bclkQuiet = some n → n < 100) ∧
      (∀ k w n, s.csu.running = some (.define k w n) → n < 1000) ∧
      (∀ k n, s.csu.running = some (.clear k n) → n < 1000)) ∧
    tick s =
      { s with
        bpt := { s.bpt with held := match s.bpt.held with | .stall a n => .stall a (n + 1) | x => x }
        disp := { s.disp with ackTimer := s.disp.ackTimer.map (· + 1) }
        link :=
          { s.link with
            resetTicks := s.link.resetTicks.map (· + 1), periodClock := s.link.periodClock.map (· + 1)
            helloClock := s.link.helloClock + if s.link.state = .hello then 1 else 0
            helloAge := s.link.helloAge + if s.link.state = .hello then 1 else 0 }
        pass :=
          { s.pass with
            syncClock := s.pass.syncClock + if syncPaced s = true then 1 else 0
            refreshClock := s.pass.refreshClock + if s.pass.refreshing = true then 1 else 0 }
        rc :=
          { s.rc with
            dual := (match s.rc.dual with | .running n => .running (n + 1) | x => x)
            handoff := s.rc.handoff.map (· + 1), liveness := s.rc.liveness.map (· + 1)
            bclkQuiet := s.rc.bclkQuiet.map (· + 1) }
        csu :=
          { s.csu with
            postClock := s.csu.postClock + 1
            running := s.csu.running.map fun
              | .define k w n => .define k w (n + 1)
              | .clear k n => .clear k (n + 1)
              | .switchover => .switchover } })

/-- POWER_ON_RESET from any state (R133, and the reset values of the other chapters): the unit follows the strap,
every block is at its reset value, and the 64 status words are pending in ascending order with their values. That
the SSRAM, the CLAIM_IN level, BCLK, the free values drawn and the commands that wait are kept is the model's choice (log
entries 2 and 14), as are the
values of the fields the manual does not name, which no rule reads before it sets them. -/
def Obligations.PowerOnResetState : Prop :=
  ∀ (b : Bool) (s : State), ∃ t, exec (.powerOnReset b) s = .next t ∧
    t.windows = Vector.replicate 8 .none ∧
    t.bpt.shadow = Vector.replicate 16 0 ∧ t.bpt.held = .none ∧ t.bpt.waiting = [] ∧ t.bpt.suppressed = 0 ∧
    t.bpt.waitCount = 0 ∧
    t.rts = { tags := [], pointers := Vector.replicate 8 0, outstanding := 0 } ∧
    t.journals = { queue := [], states := Vector.replicate 8 none } ∧
    t.disp =
      { roundRobin := Vector.replicate 4 7, readouts := Vector.replicate 4 none, inFlight := [],
        syncBeginArm := false, syncDoneArm := false, handoverArm := false, ackTimer := none,
        seqClosed := false, corrected := 0 } ∧
    t.link =
      { state := .off, divider := 1, resetTicks := none, alignCount := 0, aligned := false, strayBytes := 0,
        incoming := none, seen := false, helloPassed := false, helloSeenIn := false, helloSeenOut := false,
        nextSeq := 0, expected := 0, nakPending := false, ackWaiting := false, nakWaiting := false,
        heartbeatWaiting := false, helloWaiting := false, helloClock := 0, helloAge := 0, periodClock := none,
        frameInPeriod := false, frameAtBoundary := false, missCount := 0, view := .none,
        peer := { role := .init, sync := .unsynced, epoch := 0, gen := 0 }, crcErrors := 0, protocolErrors := 0,
        sending := none } ∧
    t.apply =
      { queue := [], written := 0, merged := none, applied := 0, lastAck := 0, counts := Vector.replicate 8 0 } ∧
    t.pass =
      { phase := .none, syncPos := 0, syncClock := 0, awaited := .none, refreshing := false, refreshPos := 0,
        refreshClock := 0, gen := 0 } ∧
    t.rc.role = .init ∧ t.rc.closing = false ∧ t.rc.sync = .unsynced ∧ t.rc.epoch = 0 ∧
    t.rc.unit = (if b then .b else .a) ∧ t.rc.claimOut = false ∧ t.rc.dual = .stopped ∧
    t.rc.handoff = none ∧ t.rc.liveness = none ∧ t.rc.busClock = .notWatching ∧
    t.csu.running = none ∧ t.csu.result = { code := 0, result := .ok, field := 0, done := true } ∧
    t.csu.timing = defaultTiming ∧ t.csu.pendingSet = 0 ∧ t.csu.enableSet = 0 ∧ t.csu.intHigh = true ∧
    t.csu.resultHold = none ∧ t.csu.discard.marker = .none ∧ t.csu.violation = 0 ∧ t.csu.postClock = 0 ∧
    t.csu.lastCounts = ([4, 5, 8, 9, 10, 11, 12, 13, 14, 15, 16, 17, 18].map fun w => ⟨w, 0⟩) ∧
    t.csu.postQueue =
      (List.range 64).map (fun w =>
        ⟨w, if w = 0 then (if b then 0x10000 else 0) else if w = 2 then 0x8000000000000000 else 0⟩) ∧
    t.mem = s.mem ∧ t.rc.claimIn = s.rc.claimIn ∧ t.rc.bclkQuiet = s.rc.bclkQuiet ∧ t.draws = s.draws ∧
    t.pending = s.pending

/-- The state right after reset keeps every law of the device: the laws of every statement of what a step keeps. -/
def Obligations.LawsAtReset : Prop :=
  MemoryLaw State.reset ∧ InterruptLaw State.reset ∧ RoomLaw State.reset ∧ RoleLaw State.reset ∧
  WindowLaw State.reset ∧ CoverLaw State.reset ∧ FlightLaw State.reset ∧ SequenceLaw State.reset ∧
  JournalLaw State.reset ∧ LinkLaw State.reset ∧ StallLaw State.reset ∧ ReadLaw State.reset ∧ PostedLaw State.reset ∧
  SendingLaw State.reset ∧ OffersLaw State.reset ∧ ReadoutLaw State.reset

/-! ## The session bus path -/

/-- ORDINARY_ACCESS on a free bus (R16, R17; reads of the pages R18, R21): a write reaches the SSRAM as driven and
changes no other word, a read returns the word as the SSRAM holds it, and there is no further effect. What a write
of some bytes leaves in the check bits is a free value, and that a write of no byte leaves the check bits as they were is
the model's choice (log entry 4). -/
def Obligations.OrdinaryForwarded : Prop :=
  ∀ (a : Access) (s : State), BusFree s →
    (regionOf s.windows a.addr = .ordinary ∨ (a.write = false ∧ Config.statusBase ≤ a.addr.toNat)) →
    ∃ t, exec (.ordinaryAccess a) s = .next t ∧
      t.unreported =
        (if a.write then { s with mem := memWrite s.mem a.addr (writtenWord (memRead s.mem a.addr) a.data a.check a.enables) }
         else { s with bpt := { s.bpt with readData := memRead s.mem a.addr } }).unreported ∧
      (MemoryLaw s → ∀ b, b ≠ a.addr ∨ a.write = false ∨ a.enables = 0 → memRead t.mem b = memRead s.mem b) ∧
      (MemoryLaw s → a.write = true → a.enables = 0xFF → memRead t.mem a.addr = ⟨a.data, a.check⟩)

/-- CONTROL_PAGE_WRITE on a free bus (R18): a write that delivers no event is forwarded to memory in every role,
is merged byte by byte into the shadow of words 0..15, and has no other effect. -/
def Obligations.ControlPageMerge : Prop :=
  ∀ (w : BitVec 6) (data : DWord) (check e : Byte) (s : State), BusFree s →
    ((w ≠ 0 ∧ w ≠ 8 ∧ w ≠ 9 ∧ w ≠ 10) ∨ e = 0) →
    ∃ t, exec (.controlPageWrite w data check e) s = .next t ∧
      t.unreported =
        ({ s with
           bpt :=
             { s.bpt with
               shadow :=
                 if h : w.toNat < 16 then s.bpt.shadow.set w.toNat (mergeBytes s.bpt.shadow[w.toNat] data e)
                 else s.bpt.shadow }
           mem := memDrive s.mem (controlAccess w data check e) } : State).unreported

/-- A write of control page word 0 with some byte enable set delivers the command event with the shadow values of
words 0, 1, 2 and 3 after the merge, whether or not the CSU is busy (R19), and is forwarded to memory. A write of
words 8, 9 and 10 is the liveness, notice enable and notice clear write. -/
def Obligations.ControlEventsDelivered : Prop :=
  ∀ (data : DWord) (check e : Byte) (s : State),
    (BusFree s → e ≠ 0 →
      let w0 := mergeBytes s.bpt.shadow[0] data e
      let d := commandTrigger w0 s.bpt.shadow[1] s.bpt.shadow[2] s.bpt.shadow[3]
        { s with bpt := { s.bpt with shadow := s.bpt.shadow.set 0 w0 } }
      ∃ t, exec (.controlPageWrite 0 data check e) s = .next t ∧
        t.unreported = ({ d with mem := memDrive s.mem (controlAccess 0 data check e) } : State).unreported) ∧
    exec (.controlPageWrite 8 data check e) s = exec (.livenessWrite data check e) s ∧
    exec (.controlPageWrite 9 data check e) s = exec (.noticeEnable data check e) s ∧
    exec (.controlPageWrite 10 data check e) s = exec (.noticeClear data check e) s

/-- The status page (R21). A write on an open bus is suppressed in every role, whatever its byte enables:
PAGE_VIOLATION is raised, its address replaces the one recorded before in the page-violation field of status word 7,
and nothing else changes. A read on a free bus is forwarded and returns the content of memory. -/
def Obligations.StatusPageSuppressed : Prop :=
  (∀ (w : BitVec 6) (data : DWord) (check e : Byte) (s : State), BusOpen s →
    ∃ t, exec (.statusPageWrite w data check e) s = .next t ∧
      t.unreported =
        ({ s with
           csu :=
             { s.csu with
               pendingSet := s.csu.pendingSet ||| Notice.pageViolation.mask
               violation := BitVec.ofNat 19 (524160 + w.toNat) } } : State).unreported ∧
      bitsOf (statusWord t 7) 32 19 = 524160 + w.toNat) ∧
  (∀ (w : BitVec 6) (s : State), BusFree s →
    ∃ t, exec (.ordinaryAccess ⟨false, BitVec.ofNat 19 (524160 + w.toNat), 0, 0, 0⟩) s = .next t ∧
      t.unreported =
        ({ s with
           bpt := { s.bpt with readData := memRead s.mem (BitVec.ofNat 19 (524160 + w.toNat)) } } :
          State).unreported)

/-- RECORD_WINDOW_WRITE by the role at decode (R22 to R24, R38, R39, R63). Suppressed and counted in STANDBY,
TAKEOVER and the closing sub-state, with no word of memory changed. Captured and forwarded in ACTIVE, and in
HANDOFF before closing, with some byte enable set: the tag moves by the word's class, and a structural capture
of a record whose readout is still reading and has restarted fewer than 3 times restarts that readout. Forwarded
uncaptured otherwise. -/
def Obligations.RecordWriteByRole : Prop :=
  ∀ (addr : Addr) (data : DWord) (check e : Byte) (s : State) (k : Slot) (w : RecordWindow) (i p : Nat),
    addr.toNat < Config.statusBase → placeOf s.windows addr.toNat = .record k w i p → BusFree s →
    ∃ t, exec (.recordWindowWrite addr data check e) s = .next t ∧
      (suppresses s.rc = true →
        t.unreported =
          ({ s with bpt := { s.bpt with suppressed := saturatingInc s.bpt.suppressed } } : State).unreported) ∧
      (suppresses s.rc = false → (captures s.rc = false ∨ e = 0) →
        t.unreported =
          ({ s with mem := memDrive s.mem ⟨true, addr, data, check, e⟩ } : State).unreported) ∧
      (captures s.rc = true → e ≠ 0 → w.isVolatile p = true →
        t.unreported =
          ({ s with
             rts := setTag (w.tagBase + i) (tagAfter .volatileCapture (tagAt s.rts (w.tagBase + i))) s.rts
             mem := memDrive s.mem ⟨true, addr, data, check, e⟩ } : State).unreported) ∧
      (captures s.rc = true → e ≠ 0 → w.isVolatile p = false →
        (∀ x ∈ s.disp.inFlight, x.item = .record k i → stillReading s.disp x = false) →
        t.unreported =
          ({ s with
             rts := setTag (w.tagBase + i) (tagAfter .structuralCapture (tagAt s.rts (w.tagBase + i))) s.rts
             mem := memDrive s.mem ⟨true, addr, data, check, e⟩ } : State).unreported) ∧
      (captures s.rc = true → e ≠ 0 → w.isVolatile p = false →
        ∀ x r ro, (s.disp.inFlight.find? fun y => decide (y.item = .record k i) && stillReading s.disp y) = some x →
          x.readout = some r → s.disp.readouts[r] = some ro →
          (ro.restarts < 3 → TagForm s →
            t.disp = { s.disp with
              readouts := s.disp.readouts.set r (some { ro with words := [], restarts := ro.restarts + 1 }) } ∧
            tagAt t.rts (w.tagBase + i) =
              tagAfter .readoutRestart (tagAfter .structuralCapture (tagAt s.rts (w.tagBase + i)))) ∧
          (3 ≤ ro.restarts → TagForm s →
            t.disp = s.disp ∧
            tagAt t.rts (w.tagBase + i) = tagAfter .structuralCapture (tagAt s.rts (w.tagBase + i)))) ∧
      (TagForm s → ∀ n, n ≠ w.tagBase + i → tagAt t.rts n = tagAt s.rts n) ∧
      (MemoryLaw s → ∀ b, b ≠ addr ∨ suppresses s.rc = true → memRead t.mem b = memRead s.mem b) ∧
      (MemoryLaw s → suppresses s.rc = false → e = 0xFF → memRead t.mem addr = ⟨data, check⟩)

/-- JOURNAL_WINDOW_WRITE by the role and the journal state at decode (R23 to R26): suppressed and counted; or
one WORD entry appended and the write forwarded; or stalled on a full Journal Queue; or forwarded with nothing
appended. -/
def Obligations.JournalWriteByRole : Prop :=
  ∀ (addr : Addr) (data : DWord) (check e : Byte) (s : State) (k : Slot) (w : JournalWindow) (f : Nat),
    addr.toNat < Config.statusBase → placeOf s.windows addr.toNat = .journal k w f → BusFree s →
    ∃ t, exec (.journalWindowWrite addr data check e) s = .next t ∧
      (suppresses s.rc = true →
        t.unreported =
          ({ s with bpt := { s.bpt with suppressed := saturatingInc s.bpt.suppressed } } : State).unreported) ∧
      (captures s.rc = true → e ≠ 0 → queuesWrites s.journals.states[k] = true → s.journals.queue.length < 128 →
        t.unreported =
          ({ s with
             journals := { s.journals with queue := s.journals.queue ++ [⟨.word k f data e, false⟩] }
             mem := memDrive s.mem ⟨true, addr, data, check, e⟩ } : State).unreported) ∧
      (captures s.rc = true → e ≠ 0 → queuesWrites s.journals.states[k] = true → 128 ≤ s.journals.queue.length →
        t.unreported =
          ({ s with bpt := { s.bpt with held := .stall ⟨true, addr, data, check, e⟩ 0 } } : State).unreported) ∧
      (suppresses s.rc = false → (captures s.rc = false ∨ e = 0 ∨ queuesWrites s.journals.states[k] = false) →
        t.unreported =
          ({ s with mem := memDrive s.mem ⟨true, addr, data, check, e⟩ } : State).unreported) ∧
      (MemoryLaw s → ∀ b, b ≠ addr ∨ suppresses s.rc = true → memRead t.mem b = memRead s.mem b)

/-- WINDOW_READ and HELD_READ_RELEASE (R24, R28 to R30, R32): a read is held while the part is STANDBY or TAKEOVER and the
apply queue holds an entry that covers the word, and otherwise returns the word; which entries cover it is the table of
R28. A held read stays held while an entry covers it. Once released it waits for its slot alone, which no later entry
takes from it and which the arbiter gives it while BCLK runs, and it returns the content of memory. No word of memory
changes. That HELD_READ_RELEASE is the slot of a read which the departure of its last covering entry has released is log
entry 24's reading of R29. A read still marked held that no entry covers, which no run reaches, is released and takes its
slot at once. -/
def Obligations.ReadsHeldAndReleased : Prop :=
  (∀ (addr : Addr) (s : State), addr.toNat < Config.statusBase → placeOf s.windows addr.toNat ≠ .outside →
    BusFree s →
    ∃ t, exec (.windowRead addr) s = .next t ∧
      t.unreported =
        (if applies s.rc.role = true ∧ covered s addr = true then
          { s with bpt := { s.bpt with held := .read addr } }
         else { s with bpt := { s.bpt with readData := memRead s.mem addr } }).unreported) ∧
  (∀ (addr : Addr) (s : State), covered s addr = true ↔ ∃ f ∈ s.apply.queue,
    (∃ k w i p j, placeOf s.windows addr.toNat = .record k w i p ∧ j.toNat = i ∧
      ((∃ ws, f.body = .record k j ws) ∨ f.body = .tombstone k j ∨ f.body = .discard k j)) ∨
    (∃ k w o j, placeOf s.windows addr.toNat = .journal k w o ∧
      ((j.toNat = o ∧ ∃ m d, f.body = .journalWord k j m d) ∨
        (j.toNat ≤ o ∧ o < j.toNat + 4 ∧ ∃ l w0 w1 w2 w3, f.body = .journalBlock k j l w0 w1 w2 w3)))) ∧
  (∀ (addr : Addr) (s : State),
    let port : Access := ⟨false, addr, 0, 0, 0⟩
    (s.bpt.held = .read addr → covered s addr = true →
      ∃ t, exec .heldReadRelease s = .next t ∧ t.unreported = s.unreported) ∧
    (s.bpt.held = .read addr → covered s addr = false → s.rc.bclkQuiet ≠ none →
      ∃ t, exec .heldReadRelease s = .next t ∧
        t.unreported = ({ s with bpt := { s.bpt with held := .port port } } : State).unreported) ∧
    (s.bpt.held = .port port → s.rc.bclkQuiet ≠ none →
      ∃ t, exec .heldReadRelease s = .next t ∧ t.unreported = s.unreported) ∧
    (s.bpt.held = .port port ∨ (s.bpt.held = .read addr ∧ covered s addr = false) → s.rc.bclkQuiet = none →
      s.bpt.waitCount < 32 →
      ∃ t, exec .heldReadRelease s = .next t ∧
        t.unreported =
          ({ s with bpt := { s.bpt with held := .none, readData := memRead s.mem addr } } : State).unreported))

/-- While one access is held, or BCLK does not run, no later access is taken (R16, R32): it joins the end of the
list of those that wait (the model's list, log entry 8), and nothing else changes. -/
def Obligations.BlockedAccessWaits : Prop :=
  ∀ (s : State), (s.bpt.held ≠ .none ∨ s.rc.bclkQuiet ≠ none ∨ s.bpt.waiting ≠ []) →
    let waits (c : Instr) (a : Access) : Prop := ∃ t, exec c s = .next t ∧
      t.unreported = ({ s with bpt := { s.bpt with waiting := s.bpt.waiting ++ [a] } } : State).unreported
    (∀ a, waits (.ordinaryAccess a) a) ∧
    (∀ w d c e, waits (.controlPageWrite w d c e) (controlAccess w d c e)) ∧
    (∀ w d c e, waits (.statusPageWrite w d c e) (statusAccess w d c e)) ∧
    (∀ a d c e, waits (.recordWindowWrite a d c e) ⟨true, a, d, c, e⟩) ∧
    (∀ a d c e, waits (.journalWindowWrite a d c e) ⟨true, a, d, c, e⟩) ∧
    (∀ a, waits (.windowRead a) ⟨false, a, 0, 0, 0⟩) ∧
    (∀ r c e, waits (.start r c e) (commandAccess 0x10 r c e)) ∧
    (∀ r c e, waits (.stop r c e) (commandAccess 0x11 r c e))

/-- The waiting rule of R31. With the count at 32 the class whose request has waited longest takes the slot before the
upstream access, as its own row does in a slot of its own, and the count starts again: the apply class, the readout class,
or a status posting. The longest waiting request is the front of the list of the offered requests, which every command
leaves with exactly the requests the classes offer, the earlier ones in their order before the new. A write into a window
is not held for a readout read of the very word it writes, and the count stays at 32: into a RECORD window where the
capture restarts no readout, or where the read is of K and restarts alone, and into a JOURNAL window. Below 32 a granted access adds 1 while a
request waits; a suppressed one adds nothing, a slot of a part request sets 0, and so does every step that leaves no request
waiting. The order of requests first offered in one step is log entry 20's choice, and that a capture is delivered before
the grant of its write log entry 9's. -/
def Obligations.WaitingRuleServes : Prop :=
  (∀ (a : Access) (s : State) (p : Posting) (rest : List Posting), BusOpen s → s.bpt.waitCount = 32 →
    regionOf s.windows a.addr = .ordinary → a.write = true → s.csu.postQueue = p :: rest →
    currentOffers s = [.status p.word] → (p.word ≠ 2 ∨ s.csu.resultHold = none) → PostedLaw s → RoomLaw s →
    ∃ t, exec (.ordinaryAccess a) s = .next t ∧
      t.mem = memDrive (memWrite s.mem (BitVec.ofNat 19 (524160 + p.word)) (codedWord p.value)) a ∧
      t.csu.postQueue = rest ∧ t.bpt.waitCount = (if rest = [] then 0 else 1)) ∧
  (∀ (addr : Addr) (data : DWord) (check e : Byte) (s : State) (k : Slot) (w : RecordWindow) (i p : Nat) (q : SeqNo)
    (n m : Nat), BusOpen s → s.bpt.waitCount = 32 → captures s.rc = true →
    addr.toNat < Config.statusBase → placeOf s.windows addr.toNat = .record k w i p → w.isVolatile p = true →
    currentOffers s = [.readout q n m] → offeredReadout s = some addr →
    ∃ t, exec (.recordWindowWrite addr data check e) s = .next t ∧
      t.mem = memDrive s.mem ⟨true, addr, data, check, e⟩ ∧ t.disp = s.disp ∧ t.bpt.waitCount = 32 ∧
      t.rts =
        if e = 0 then s.rts
        else setTag (w.tagBase + i) (tagAfter .volatileCapture (tagAt s.rts (w.tagBase + i))) s.rts) ∧
  (∀ (a : Access) (s : State) (o : Offer) (os : List Offer), BusOpen s → OffersLaw s → RoleLaw s →
    s.bpt.waitCount = 32 → s.bpt.offers = o :: os → regionOf s.windows a.addr = .ordinary →
    ¬ (a.write = true ∧ offeredReadout s = some a.addr) →
    let driven (u : State) : State :=
      if a.write then { u with mem := memDrive u.mem a }
      else { u with bpt := { u.bpt with readData := memRead u.mem a.addr } }
    let counted (t : State) : Prop := os <+: t.bpt.offers ∧ t.bpt.waitCount = if currentOffers t = [] then 0 else 1
    let served (c : Instr) : Prop := ∃ u t, exec c s = .next u ∧ exec (.ordinaryAccess a) s = .next t ∧
      t.unreported = (driven u).unreported ∧ counted t
    (∀ q n m, o = .apply q n m →
      ((nextMergeRead s).isSome = true → served .applyMergeRead) ∧
      ((nextMergeRead s).isSome = false → served .applyWordWrite)) ∧
    (∀ q n m, o = .readout q n m → served .readoutRead) ∧
    (∀ n p rest, o = .status n → s.csu.postQueue = p :: rest → (n ≠ 2 ∨ s.csu.resultHold = none) → PostedLaw s →
      RoomLaw s →
      ∃ t, exec (.ordinaryAccess a) s = .next t ∧ p.word = n ∧ counted t ∧ t.csu.postQueue = rest ∧
        t.unreported =
          (driven
            { s with mem := memWrite s.mem (BitVec.ofNat 19 (524160 + n)) ⟨p.value, checkBits p.value⟩ }).unreported)) ∧
  (∀ (addr : Addr) (data : DWord) (check e : Byte) (s : State) (q : SeqNo) (n m : Nat) (os : List Offer),
    BusOpen s → OffersLaw s → s.bpt.waitCount = 32 → captures s.rc = true → addr.toNat < Config.statusBase →
    s.bpt.offers = .readout q n m :: os → offeredReadout s = some addr →
    (∀ k w i p, placeOf s.windows addr.toNat = .record k w i p →
      w.isVolatile p = true ∨ e = 0 ∨ 3 ≤ n ∨
        (p = w.stateWord ∧ os = [] ∧ ReadoutLaw s ∧ TableLaw s.windows) →
      ∃ t, exec (.recordWindowWrite addr data check e) s = .next t ∧
        t.mem = memDrive s.mem ⟨true, addr, data, check, e⟩ ∧
        (PostedLaw s → t.csu.postQueue = s.csu.postQueue) ∧
        t.bpt.waitCount = 32) ∧
    (∀ k w f, placeOf s.windows addr.toNat = .journal k w f → s.journals.queue.length < 128 →
      ∃ t, exec (.journalWindowWrite addr data check e) s = .next t ∧
        t.mem = memDrive s.mem ⟨true, addr, data, check, e⟩ ∧
        (PostedLaw s → t.csu.postQueue = s.csu.postQueue) ∧
        t.disp = s.disp ∧ t.bpt.waitCount = 32)) ∧
  (∀ (c : Instr) (s : State), BusFree s → OffersLaw s →
    ((∃ a, c = .ordinaryAccess a ∧ regionOf s.windows a.addr = .ordinary) ∨
      (∃ word data check e, c = .controlPageWrite word data check e ∧ word ≠ 0 ∧ word ≠ 8 ∧ word ≠ 9 ∧ word ≠ 10) ∨
      (∃ addr, c = .windowRead addr ∧ addr.toNat < Config.statusBase ∧ covered s addr = false) ∨
      (∃ addr data check e k w i p, c = .recordWindowWrite addr data check e ∧ addr.toNat < Config.statusBase ∧
        placeOf s.windows addr.toNat = .record k w i p ∧ suppresses s.rc = false) →
      ∃ t, exec c s = .next t ∧ t.bpt.waitCount = if currentOffers s = [] then 0 else s.bpt.waitCount + 1) ∧
    ((∃ addr data check e k w i p, c = .recordWindowWrite addr data check e ∧ addr.toNat < Config.statusBase ∧
        placeOf s.windows addr.toNat = .record k w i p ∧ suppresses s.rc = true) →
      ∃ t, exec c s = .next t ∧ t.bpt.waitCount = if currentOffers s = [] then 0 else s.bpt.waitCount)) ∧
  (∀ (c : Instr) (s t : State), OffersLaw s → exec c s = .next t → OffersLaw t ∧
    (s.rc.bclkQuiet = none →
      (c = .applyMergeRead ∧ nextClass s = some .apply ∧ (nextMergeRead s).isSome = true) ∨
      (c = .applyWordWrite ∧ nextClass s = some .apply ∧ (nextMergeRead s).isSome = false) ∨
      (c = .readoutRead ∧ nextClass s = some .readout) ∨ (c = .statusPostingWrite ∧ nextClass s = some .status) →
      t.bpt.waitCount = 0) ∧
    (c = .postingTick ∨ c = .itemStart ∨ (∃ f, c = .sequencedFrameReceived f) →
      t.bpt.offers = (s.bpt.offers.filter fun o => decide (o ∈ currentOffers t)) ++
        ((currentOffers t).filter fun o => decide (o ∉ s.bpt.offers)) ∧
      t.bpt.waitCount = if currentOffers t = [] then 0 else s.bpt.waitCount))

/-- JOURNAL_STALL_ROOM and JOURNAL_STALL_EXPIRY (R26, R32, R73): room appends the stalled write's WORD entry and
forwards the write; an expiry with no room forwards it uncaptured and makes its window DESYNC with JOURNAL_DESYNC
raised, and an expiry after room has appeared changes nothing; while BCLK does not run the forwarded write waits for its
memory cycle. Room that has appeared before an event of R27 is taken before the event (R27, R72): the event runs from the
state in which the room has ended the stall. That the room is a step of its own, which comes before any such event, is log
entry 24's reading. -/
def Obligations.StallEnds : Prop :=
  (∀ (c : Instr) (s t : State), exec .journalStallRoom s = .next t →
    ((∃ h, c = .helloReceived h) ∨ (∃ h b, c = .heartbeatReceived h b) ∨ (∃ q, c = .ackReceived q) ∨
      (∃ l b, c = .invalidFrame l b) ∨ (∃ v f g, c = .byteBetweenFrames v f g) ∨
      (∃ v f g, c = .trainingByteReceived v f g) ∨ (∃ b, c = .claimInChange b) ∨ c = .receivedClockTimeout ∨
      c = .ackTimerExpiry ∨ c = .sequenceClosedRetrain ∨ c = .heartbeatPeriodBoundary ∨
      c = .dualClaimTimerExpiry ∨ c = .livenessExpiry ∨ c = .busClockLost) →
    exec c s = exec c t) ∧
  ∀ (a : Access) (n : Nat) (s : State) (k : Slot) (w : JournalWindow) (f : Nat),
    a.addr.toNat < Config.statusBase → placeOf s.windows a.addr.toNat = .journal k w f → a.write = true →
    s.bpt.held = .stall a n → s.bpt.waitCount < 32 → captures s.rc = true →
    queuesWrites s.journals.states[k] = true →
    let bus : Bpt := { s.bpt with held := if s.rc.bclkQuiet = none then .none else .port a }
    let memory : Memory := if s.rc.bclkQuiet = none then memDrive s.mem a else s.mem
    (s.journals.queue.length < 128 →
      (∃ t, exec .journalStallRoom s = .next t ∧
        t.unreported =
          ({ s with
             bpt := bus
             journals := { s.journals with queue := s.journals.queue ++ [⟨.word k f a.data a.enables, false⟩] }
             mem := memory } : State).unreported) ∧
      exec .journalStallExpiry s = .next s) ∧
    (128 ≤ s.journals.queue.length →
      exec .journalStallRoom s = .next s ∧
      ∃ t, exec .journalStallExpiry s = .next t ∧
        t.unreported =
          ({ s with
             bpt := bus
             journals := { s.journals with states := s.journals.states.set k (some .desync) }
             csu := { s.csu with pendingSet := s.csu.pendingSet ||| Notice.journalDesync.mask }
             mem := memory } : State).unreported)

/-- LIVENESS_WRITE, NOTICE_ENABLE and NOTICE_CLEAR on a free bus, with some byte enable set (R19, R156, R170,
R171): the liveness timer starts at 0 outside INIT unless L is 0; the enable set becomes bits 15:0 of the shadow
of word 9; the kinds set in the shadow of word 10 leave the pending set; INT_N follows the two sets. -/
def Obligations.HousekeepingWords : Prop :=
  ∀ (data : DWord) (check e : Byte) (s : State), BusFree s → e ≠ 0 →
    (∃ t, exec (.livenessWrite data check e) s = .next t ∧
      t.unreported =
        ({ s with
           bpt := { s.bpt with shadow := s.bpt.shadow.set 8 (mergeBytes s.bpt.shadow[8] data e) }
           rc :=
             { s.rc with
               liveness :=
                 if s.rc.role = .init then s.rc.liveness
                 else if s.csu.timing.livenessMs = 0 then none else some 0 }
           mem := memDrive s.mem (controlAccess 8 data check e) } : State).unreported) ∧
    (∃ t, exec (.noticeEnable data check e) s = .next t ∧
      t.unreported =
        ({ s with
           bpt := { s.bpt with shadow := s.bpt.shadow.set 9 (mergeBytes s.bpt.shadow[9] data e) }
           csu := { s.csu with enableSet := (mergeBytes s.bpt.shadow[9] data e).setWidth 16 }
           mem := memDrive s.mem (controlAccess 9 data check e) } : State).unreported ∧
      (t.csu.intHigh = false ↔ t.csu.pendingSet &&& t.csu.enableSet ≠ 0)) ∧
    (∃ t, exec (.noticeClear data check e) s = .next t ∧
      t.unreported =
        ({ s with
           bpt := { s.bpt with shadow := s.bpt.shadow.set 10 (mergeBytes s.bpt.shadow[10] data e) }
           csu :=
             { s.csu with
               pendingSet := s.csu.pendingSet &&& ~~~ (mergeBytes s.bpt.shadow[10] data e).setWidth 16 }
           mem := memDrive s.mem (controlAccess 10 data check e) } : State).unreported ∧
      (t.csu.intHigh = false ↔ t.csu.pendingSet &&& t.csu.enableSet ≠ 0))

/-- R179: the bit of every notice kind is the same in status word 3 and in control page words 9 and 10. -/
def Obligations.NoticeBits : Prop :=
  (Notice.commandDone.bit = 0 ∧ Notice.roleChanged.bit = 1 ∧ Notice.linkUp.bit = 2 ∧ Notice.linkDown.bit = 3 ∧
   Notice.peerLost.bit = 4 ∧ Notice.syncDone.bit = 5 ∧ Notice.dualClaim.bit = 6 ∧ Notice.noActive.bit = 7 ∧
   Notice.hostSilent.bit = 8 ∧ Notice.busClockLost.bit = 9 ∧ Notice.recordDiscarded.bit = 10 ∧
   Notice.journalDesync.bit = 11 ∧ Notice.journalRecopied.bit = 12 ∧ Notice.pageViolation.bit = 13 ∧
   Notice.commandOverrun.bit = 14 ∧ Notice.incompatible.bit = 15) ∧
  (∀ (n m : Notice) (s : State),
    (statusWord (raise n s) 3).getLsbD n.bit = true ∧
    (m ≠ n → (statusWord (raise n s) 3).getLsbD m.bit = (statusWord s 3).getLsbD m.bit)) ∧
  (∀ (n : Notice) (w : DWord) (s : State),
    (enableEvent w s).csu.enableSet.getLsbD n.bit = w.getLsbD n.bit ∧
    (statusWord (clearEvent w s) 3).getLsbD n.bit = ((statusWord s 3).getLsbD n.bit && !w.getLsbD n.bit)) ∧
  (∀ s : State, (statusWord (clearEvent 2 s) 3).getLsbD Notice.roleChanged.bit = false)

/-! ## The commands of the control page -/

/-- The seven checks of DEFINE_WINDOW in the order of R5, each with its code where those before it pass: WRONG_ROLE,
BAD_ARGUMENT for the slot and the kind, for the fields and for a run into the status page, OVERLAP for a base in the
pages and with another window, CAPACITY; a definition that passes all seven is accepted. What an accepted definition is:
legal, apart from every other window and from the two pages, and within the record total. Over a legal table its
completion gives a legal table again (R3, R6 to R9). -/
def Obligations.DefineCheckOrder : Prop :=
  (∀ (r : Role) (t : Vector Window 8) (f : DefineFields), r ≠ .init → checkDefine r t f = .error .wrongRole) ∧
  (∀ (t : Vector Window 8) (f : DefineFields),
    (7 < f.slot ∨ (f.kind ≠ 1 ∧ f.kind ≠ 2) → checkDefine .init t f = .error .badArgument) ∧
    (f.slot ≤ 7 → f.kind = 1 →
      (¬ (f.size = 4 ∨ f.size = 8 ∨ f.size = 16) ∨ f.count = 0 ∨ 65536 < f.count ∨ f.base % f.size ≠ 0 ∨
        f.size ≤ f.stateWord ∨ f.volatileSet >>> f.size ≠ 0 ∨ f.volatileSet.getLsbD f.stateWord = true ∨
        3 < f.priority) → checkDefine .init t f = .error .badArgument) ∧
    (f.slot ≤ 7 → f.kind = 2 →
      (f.length % 4 ≠ 0 ∨ f.length < 4 ∨ 8192 < f.length ∨ f.base % 4 ≠ 0 ∨ 3 < f.priority) →
      checkDefine .init t f = .error .badArgument) ∧
    (f.slot ≤ 7 → f.kind = 1 → f.recordLegal = true →
      (524160 ≤ f.base → checkDefine .init t f = .error .overlap) ∧
      (f.base < 524160 → 524160 < f.base + f.size * f.count → checkDefine .init t f = .error .badArgument)) ∧
    (f.slot ≤ 7 → f.kind = 2 → f.journalLegal = true →
      (524160 ≤ f.base → checkDefine .init t f = .error .overlap) ∧
      (f.base < 524160 → 524160 < f.base + f.length → checkDefine .init t f = .error .badArgument)) ∧
    (∀ k : Slot, f.slot = k.val → f.base < 524160 →
      ((f.kind = 1 ∧ f.recordLegal = true ∧ f.base + f.size * f.count ≤ 524160) ∨
        (f.kind = 2 ∧ f.journalLegal = true ∧ f.base + f.length ≤ 524160)) →
      let others : Nat := sumSlots Window.records t (allSlots.filter fun i => decide (i ≠ k))
      ((∃ i : Slot, i ≠ k ∧ (t[i]).overlaps f.window = true) → checkDefine .init t f = .error .overlap) ∧
      ((∀ i : Slot, i ≠ k → (t[i]).overlaps f.window = false) →
        (f.kind = 1 → 65536 < others + f.count → checkDefine .init t f = .error .capacity) ∧
        (f.kind = 2 ∨ others + f.count ≤ 65536 → checkDefine .init t f = .ok (k, f.window))))) ∧
  (∀ (t : Vector Window 8) (f : DefineFields) (k : Slot) (w : Window), checkDefine .init t f = .ok (k, w) →
    k.val = f.slot ∧ w = f.window ∧ w ≠ .none ∧ w.legal ∧
    (∀ i : Slot, i ≠ k → (t[i]).overlaps w = false) ∧
    (TableLaw t → TableLaw (replaceSlot t k w)))

/-- DEFINE_WINDOW and CLEAR_WINDOW at intake on a free bus with an idle CSU (R5, R11, R159, R160): refused with
the code of the first failing check and the total record count in the result field, or running. -/
def Obligations.WindowCommandsTaken : Prop :=
  ∀ (rest : BitVec 56) (check : Byte) (e : BitVec 7) (s : State), BusFree s → s.csu.running = none →
    (∀ r, checkDefine s.rc.role s.windows (defineFields s.bpt.shadow[1] s.bpt.shadow[2] s.bpt.shadow[3]) = .error r →
      ∃ t, exec (.defineWindow rest check e) s = .next t ∧
        t.unreported = (answered 0x01 rest check e r (totalRecords s.windows) s).unreported) ∧
    (∀ k w, checkDefine s.rc.role s.windows (defineFields s.bpt.shadow[1] s.bpt.shadow[2] s.bpt.shadow[3]) = .ok (k, w) →
      ∃ t, exec (.defineWindow rest check e) s = .next t ∧
        t.unreported = (takenIn 0x01 rest check e (.define k w 0) s).unreported) ∧
    (s.rc.role ≠ .init →
      ∃ t, exec (.clearWindow rest check e) s = .next t ∧
        t.unreported = (answered 0x02 rest check e .wrongRole (totalRecords s.windows) s).unreported) ∧
    (s.rc.role = .init → 7 < bitsOf s.bpt.shadow[1] 0 8 →
      ∃ t, exec (.clearWindow rest check e) s = .next t ∧
        t.unreported = (answered 0x02 rest check e .badArgument (totalRecords s.windows) s).unreported) ∧
    (s.rc.role = .init → ∀ k : Slot, bitsOf s.bpt.shadow[1] 0 8 = k.val →
      ∃ t, exec (.clearWindow rest check e) s = .next t ∧
        t.unreported = (takenIn 0x02 rest check e (.clear k 0) s).unreported)

/-- PROLONGED_COMMAND_COMPLETION (R3, R10, R11, R111, R160): the slot holds the new window or kind NONE, all tag
bases are those of R3, the tags of a new RECORD window are CLEAN with their marks set, the slot's search pointer
and journal applied count are 0, a new journal window is DESYNC; the result word and COMMAND_DONE follow; nothing
else changes. -/
def Obligations.WindowCommandCompletes : Prop :=
  ∀ (s : State) (k : Slot) (w : Window),
    ((∃ n, s.csu.running = some (.define k w n)) ∨ (w = .none ∧ ∃ n, s.csu.running = some (.clear k n))) →
    ∃ t, exec .prolongedCommandCompletion s = .next t ∧
      (∀ i : Slot, t.windows[i] = (if i = k then w else s.windows[i]).withTagBase (tagBaseOf t.windows i)) ∧
      t.rts.pointers = s.rts.pointers.set k 0 ∧ t.rts.outstanding = s.rts.outstanding ∧
      (TagForm s → ∀ n, tagAt t.rts n =
        if tagBaseOf t.windows k ≤ n ∧ n < tagBaseOf t.windows k + w.records then ⟨.clean, true⟩ else tagAt s.rts n) ∧
      t.unreported =
        ({ s with
           windows := t.windows
           rts := t.rts
           journals :=
             { s.journals with
               states := s.journals.states.set k (match w with | .journal _ => some .desync | _ => none) }
           apply := { s.apply with counts := s.apply.counts.set k 0 }
           csu :=
             { s.csu with
               running := none
               result :=
                 { code := (match s.csu.running with | some (.clear _ _) => 0x02 | _ => 0x01), result := .ok,
                   field := BitVec.ofNat 32 (totalRecords t.windows), done := true }
               pendingSet := s.csu.pendingSet ||| Notice.commandDone.mask } } : State).unreported

/-- SET_TIMING on a free bus with an idle CSU (R164, R175): in INIT, with mode codes that name modes, each numeric
value is taken at the nearer edge of its range, and OK or OK_CLAMPED says whether one was moved; it is refused
outside INIT and with a code that names no mode. -/
def Obligations.SetTimingClamps : Prop :=
  ∀ (rest : BitVec 56) (check : Byte) (e : BitVec 7) (s : State), BusFree s → s.csu.running = none →
    let w1 := s.bpt.shadow[1]
    let w2 := s.bpt.shadow[2]
    let b := bitsOf w2 24 8
    let d := bitsOf w2 32 16
    let l := bitsOf w1 48 16
    (s.rc.role ≠ .init →
      ∃ t, exec (.setTiming rest check e) s = .next t ∧
        t.unreported = (answered 0x03 rest check e .wrongRole 0 s).unreported) ∧
    (s.rc.role = .init → 1 < bitsOf w2 0 8 ∨ 1 < bitsOf w2 8 8 ∨ 1 < bitsOf w2 16 8 →
      ∃ t, exec (.setTiming rest check e) s = .next t ∧
        t.unreported = (answered 0x03 rest check e .badArgument 0 s).unreported) ∧
    (s.rc.role = .init → bitsOf w2 0 8 ≤ 1 → bitsOf w2 8 8 ≤ 1 → bitsOf w2 16 8 ≤ 1 →
      ∃ t, exec (.setTiming rest check e) s = .next t ∧
        t.unreported =
          (answered 0x03 rest check e
            (if bitsOf w1 0 8 ≤ 7 ∧ (10 ≤ bitsOf w1 8 16 ∧ bitsOf w1 8 16 ≤ 1000) ∧
                (2 ≤ bitsOf w1 24 8 ∧ bitsOf w1 24 8 ≤ 15) ∧ 100 ≤ bitsOf w1 32 16 ∧
                (l = 0 ∨ (10 ≤ l ∧ l ≤ 10000)) ∧
                (bitsOf w2 16 8 = 0 → 1 ≤ b) ∧ (bitsOf w2 16 8 = 1 → 1 ≤ d ∧ d ≤ 3600)
             then .ok else .okClamped) 0
            { s with
              csu :=
                { s.csu with
                  timing :=
                    { divider := min 7 (bitsOf w1 0 8)
                      heartbeatMs := max 10 (min 1000 (bitsOf w1 8 16))
                      missLimit := max 2 (min 15 (bitsOf w1 24 8))
                      refreshMs := max 100 (bitsOf w1 32 16)
                      livenessMs := if l = 0 then 0 else max 10 (min 10000 l)
                      livenessRelease := decide (bitsOf w2 0 8 = 1)
                      takeoverAuto := decide (bitsOf w2 8 8 = 0)
                      syncMode :=
                        if bitsOf w2 16 8 = 0 then .demand (max 1 b) else .paced (max 1 (min 3600 d)) } } }).unreported)

/-- START on a free bus with an idle CSU (R134, R137 to R139): refused outside INIT and with an operand that is
neither 1 nor 3; otherwise the role is taken, E grows by 1 for ACTIVE, the link enters TRAIN from OFF with its
supervision afresh, the liveness timer starts and the bus clock is watched. -/
def Obligations.StartTakesRole : Prop :=
  ∀ (rest : BitVec 56) (check : Byte) (e : BitVec 7) (s : State), BusFree s → s.csu.running = none →
    let code := bitsOf s.bpt.shadow[1] 0 8
    (s.rc.role ≠ .init →
      ∃ t, exec (.start rest check e) s = .next t ∧
        t.unreported = (answered 0x10 rest check e .wrongRole 0 s).unreported) ∧
    (s.rc.role = .init → code ≠ 1 → code ≠ 3 →
      ∃ t, exec (.start rest check e) s = .next t ∧
        t.unreported = (answered 0x10 rest check e .badArgument 0 s).unreported) ∧
    (s.rc.role = .init → code = 1 ∨ code = 3 → ClaimLaw s →
      ∃ t, exec (.start rest check e) s = .next t ∧
        t.unreported =
          (answered 0x10 rest check e .ok 0
            { s with
              link :=
                { s.link with
                  state := .train, divider := s.csu.timing.divider, resetTicks := some 0, alignCount := 0,
                  aligned := false, strayBytes := 0, incoming := none, seen := false, helloPassed := false,
                  helloSeenIn := false, helloSeenOut := false, heartbeatWaiting := false, helloWaiting := false,
                  periodClock := some 0, frameInPeriod := false, frameAtBoundary := false, missCount := 0,
                  view := .none, sending := none }
              rc :=
                { s.rc with
                  role := if code = 3 then .active else .standby
                  epoch := if code = 3 then s.rc.epoch + 1 else maxEpoch s.rc.epoch s.link.peer.epoch
                  sync := if code = 3 then s.rc.sync else .unsynced
                  claimOut := decide (code = 3)
                  dual := if code = 3 ∧ s.rc.claimIn = true then .running 0 else .stopped
                  liveness := if s.csu.timing.livenessMs = 0 then none else some 0
                  busClock := .present }
              csu := { s.csu with pendingSet := s.csu.pendingSet ||| Notice.roleChanged.mask } }).unreported)

/-- STOP on a free bus (R79, R140, R162): in INIT it changes no more than the result; from any other role, in one
step, the role is INIT, the link OFF and every list, tag, pass and timer of replication is cleared, while the
windows, the timing configuration, G, E and the counts stand. A command it aborts is named in its result field. By the
result hold of R167 the ABORTED result is pending for word 2 and STOP's completion stands behind it in the hold. That where
the DONE value of an earlier command is still pending ABORTED is replaced in the hold and not written is log entry 30's
choice. -/
def Obligations.StopReturnsToInit : Prop :=
  ∀ (rest : BitVec 56) (check : Byte) (e : BitVec 7) (s : State), BusFree s →
    let aborted : Byte := match s.csu.running with | some r => r.code | none => 0
    let completion : DWord := ResultWord.word ⟨0x11, .ok, BitVec.ofNat 32 aborted.toNat, true⟩
    (∃ t, exec (.stop rest check e) s = .next t ∧
      (∀ v, pendingValue 2 s.csu.postQueue = some v → v.getLsbD 63 = true →
        pendingValue 2 t.csu.postQueue = some v ∧ t.csu.resultHold = some completion) ∧
      ((∀ v, pendingValue 2 s.csu.postQueue = some v → v.getLsbD 63 = false) →
        (∀ r, s.csu.running = some r →
          pendingValue 2 t.csu.postQueue = some (ResultWord.word ⟨r.code, .aborted, 0, true⟩) ∧
          t.csu.resultHold = some completion) ∧
        (s.csu.running = none →
          pendingValue 2 t.csu.postQueue = some completion ∧ t.csu.resultHold = s.csu.resultHold))) ∧
    (s.rc.role = .init →
      ∃ t, exec (.stop rest check e) s = .next t ∧
        t.unreported = (answered 0x11 rest check e .ok aborted.toNat s).unreported) ∧
    (s.rc.role ≠ .init → ∃ t, exec (.stop rest check e) s = .next t ∧
      t.rc =
        { s.rc with
          role := .init, closing := false, claimOut := false, dual := .stopped, handoff := none,
          liveness := none, busClock := .notWatching } ∧
      t.link =
        { s.link with
          state := .off, resetTicks := none, alignCount := 0, aligned := false, strayBytes := 0, incoming := none,
          seen := false, helloPassed := false, helloSeenIn := false, helloSeenOut := false, ackWaiting := false,
          nakWaiting := false, heartbeatWaiting := false, helloWaiting := false, periodClock := none,
          frameInPeriod := false, frameAtBoundary := false, missCount := 0, view := .none, sending := none } ∧
      t.rts = { tags := [], pointers := Vector.replicate 8 0, outstanding := 0 } ∧
      t.disp =
        { roundRobin := Vector.replicate 4 7, readouts := Vector.replicate 4 none, inFlight := [],
          syncBeginArm := false, syncDoneArm := false, handoverArm := false, ackTimer := none,
          seqClosed := s.disp.seqClosed, corrected := s.disp.corrected } ∧
      t.pass = { phase := .none, syncPos := 0, syncClock := 0, awaited := .none, refreshing := false,
                 refreshPos := 0, refreshClock := 0, gen := s.pass.gen } ∧
      t.journals.queue = [] ∧
      (∀ k : Slot, t.journals.states[k] = (s.journals.states[k]).map fun _ => .desync) ∧
      t.apply = { s.apply with queue := [], written := 0, merged := none } ∧
      t.windows = s.windows ∧ t.csu.timing = s.csu.timing ∧ t.csu.running = none ∧
      t.csu.result = { code := 0x11, result := .ok, field := BitVec.ofNat 32 aborted.toNat, done := true } ∧
      t.csu.pendingSet =
        s.csu.pendingSet ||| Notice.commandDone.mask ||| Notice.roleChanged.mask |||
          (if s.link.state = .up then Notice.linkDown.mask else 0) |||
          (if ∃ k : Slot, queuesWrites s.journals.states[k] = true then Notice.journalDesync.mask else 0) ∧
      t.csu.enableSet = s.csu.enableSet ∧ t.csu.discard = s.csu.discard ∧ t.csu.violation = s.csu.violation ∧
      t.bpt.suppressed = s.bpt.suppressed ∧
      t.mem = memDrive s.mem (commandAccess 0x11 rest check e))

/-- SWITCHOVER on a free bus with an idle CSU (R49, R146, R147): refused outside ACTIVE, with T outside 10..10,000,
and without a paired STANDBY peer in sync; otherwise HANDOFF with its timer at 0 and every STALE record DIRTY, or
the closing sub-state at once where the part has converged already. -/
def Obligations.SwitchoverEntersHandoff : Prop :=
  ∀ (rest : BitVec 56) (check : Byte) (e : BitVec 7) (s : State), BusFree s → s.csu.running = none →
    let T := bitsOf s.bpt.shadow[1] 0 16
    let ready : Prop := s.link.view = .paired ∧ s.link.peer.role = .standby ∧ s.link.peer.sync = .inSync
    let done : Prop :=
      (∀ p ∈ s.rts.tags, p.2.state = .clean) ∧ s.journals.queue = [] ∧ s.pass.phase = .none ∧
      ∀ k : Slot, s.journals.states[k] = none ∨ s.journals.states[k] = some .inStep
    let handed (closing : Bool) : State :=
      { s with
        rc :=
          { s.rc with
            role := .handoff, closing := closing, claimOut := true, handoffMs := T
            handoff := if closing then none else some 0 }
        rts := { s.rts with tags := s.rts.tags.map fun p => (p.1, { p.2 with state := afterRefresh p.2.state }) }
        disp := { s.disp with handoverArm := s.disp.handoverArm || closing }
        csu := { s.csu with pendingSet := s.csu.pendingSet ||| Notice.roleChanged.mask } }
    (s.rc.role ≠ .active →
      ∃ t, exec (.switchover rest check e) s = .next t ∧
        t.unreported = (answered 0x12 rest check e .wrongRole 0 s).unreported) ∧
    (s.rc.role = .active → (T < 10 ∨ 10000 < T) →
      ∃ t, exec (.switchover rest check e) s = .next t ∧
        t.unreported = (answered 0x12 rest check e .badArgument 0 s).unreported) ∧
    (s.rc.role = .active → 10 ≤ T → T ≤ 10000 → ¬ ready →
      ∃ t, exec (.switchover rest check e) s = .next t ∧
        t.unreported = (answered 0x12 rest check e .notPaired 0 s).unreported) ∧
    (s.rc.role = .active → ClaimLaw s → 10 ≤ T → T ≤ 10000 → ready →
      ∃ t, exec (.switchover rest check e) s = .next t ∧
        (¬ done → t.unreported = (takenIn 0x12 rest check e .switchover (handed false)).unreported) ∧
        (done → t.unreported = (takenIn 0x12 rest check e .switchover (handed true)).unreported))

/-- TAKE_OVER on a free bus with an idle CSU (R143 to R145, R118, R119): refused outside STANDBY and while the
paired peer is ACTIVE or HANDOFF; otherwise TAKEOVER while the apply queue drains, and with an empty queue
promotion to ACTIVE at once: E is one above the greater E, replication state is cleared, and a paired STANDBY
peer brings the pairing decision: RESUME where the peer is IN_SYNC with the new E and the G, else a full sync. That the
decision is made by R118 and R145 also at a promotion of R182, whose peer record still shows STANDBY, is log entry 26's
choice. -/
def Obligations.TakeOverMoves : Prop :=
  ∀ (rest : BitVec 56) (check : Byte) (e : BitVec 7) (s : State), BusFree s → s.csu.running = none →
    let held : Prop := s.link.view = .paired ∧ (s.link.peer.role = .active ∨ s.link.peer.role = .handoff)
    let paired : Prop := s.link.state = .up ∧ s.link.peer.role = .standby
    let epoch : Epoch := maxEpoch s.rc.epoch s.link.peer.epoch + 1
    let agree : Prop := s.link.peer.sync = .inSync ∧ s.link.peer.epoch = epoch ∧ s.link.peer.gen = s.pass.gen
    let cleared : PassEngine := { s.pass with
      phase := .none, syncPos := 0, syncClock := 0, awaited := .none, refreshing := false, refreshPos := 0,
      refreshClock := 0 }
    (s.rc.role ≠ .standby →
      ∃ t, exec (.takeOver rest check e) s = .next t ∧
        t.unreported = (answered 0x13 rest check e .wrongRole 0 s).unreported) ∧
    (s.rc.role = .standby → held →
      ∃ t, exec (.takeOver rest check e) s = .next t ∧
        t.unreported = (answered 0x13 rest check e .peerActive 0 s).unreported) ∧
    (s.rc.role = .standby → ¬ held → s.apply.queue ≠ [] →
      ∃ t, exec (.takeOver rest check e) s = .next t ∧
        t.unreported =
          (answered 0x13 rest check e .ok 0
            { s with
              rc := { s.rc with role := .takeover, claimOut := false, dual := .stopped }
              csu := { s.csu with pendingSet := s.csu.pendingSet ||| Notice.roleChanged.mask } }).unreported) ∧
    (s.rc.role = .standby → ¬ held → s.apply.queue = [] →
      ∃ t, exec (.takeOver rest check e) s = .next t ∧
        t.rc =
          { s.rc with
            role := .active, claimOut := true, epoch := epoch
            dual := if s.rc.claimIn then .running 0 else .stopped } ∧
        t.disp.inFlight = [] ∧ t.disp.syncDoneArm = false ∧ t.disp.handoverArm = false ∧
        t.journals.queue = [] ∧
        (∀ k : Slot, t.journals.states[k] = (s.journals.states[k]).map fun _ => .desync) ∧
        (¬ paired →
          t.rts = { tags := [], pointers := Vector.replicate 8 0, outstanding := 0 } ∧
          t.disp.syncBeginArm = false ∧ t.pass = cleared) ∧
        (paired → agree →
          t.rts = { tags := [], pointers := Vector.replicate 8 0, outstanding := 0 } ∧
          t.disp.syncBeginArm = false ∧
          t.pass = { cleared with refreshing := decide (1 ≤ refreshTotal s.windows) }) ∧
        (paired → ¬ agree →
          (∀ n, tagAt t.rts n = ⟨.clean, !decide (n < totalRecords s.windows)⟩) ∧
          t.rts.outstanding = totalRecords s.windows ∧ t.disp.syncBeginArm = true ∧
          t.pass = { cleared with phase := .passing, refreshing := decide (1 ≤ refreshTotal s.windows) }) ∧
        t.link = s.link ∧ t.apply = s.apply ∧ t.windows = s.windows ∧ t.csu.timing = s.csu.timing ∧
        t.csu.result = { code := 0x13, result := .ok, field := 0, done := true } ∧
        t.mem = memDrive s.mem (commandAccess 0x13 rest check e))

/-- RELEASE and RESUME on a free bus with an idle CSU (R138, R154, R155, R156): RELEASE from STANDBY, TAKEOVER or
ACTIVE enters RELEASED and clears the replication state, the link standing; RESUME from RELEASED enters STANDBY,
UNSYNCED, with the greater E, and then the takeover conditions are judged: a LOST peer (R141), and a paired peer that
claims nothing, where the winner of R142 takes over in AUTO mode and raises NO_ACTIVE in NOTIFY mode. Each is refused in
the other roles. That RELEASE is answered WRONG_ROLE also in HANDOFF with no SWITCHOVER running, a state no run reaches,
is the model's choice (log entry 20). -/
def Obligations.ReleaseAndResume : Prop :=
  ∀ (rest : BitVec 56) (check : Byte) (e : BitVec 7) (s : State), BusFree s → s.csu.running = none →
    (s.rc.role ≠ .standby → s.rc.role ≠ .takeover → s.rc.role ≠ .active →
      ∃ t, exec (.release rest check e) s = .next t ∧
        t.unreported = (answered 0x14 rest check e .wrongRole 0 s).unreported) ∧
    (s.rc.role = .standby ∨ s.rc.role = .takeover ∨ s.rc.role = .active →
      ∃ t, exec (.release rest check e) s = .next t ∧
        t.rc = { s.rc with role := .released, closing := false, handoff := none, claimOut := false, dual := .stopped,
                           sync := .unsynced } ∧
        t.rts = { tags := [], pointers := Vector.replicate 8 0, outstanding := 0 } ∧
        t.disp = { s.disp with
          readouts := Vector.replicate 4 none, inFlight := [], syncBeginArm := false, syncDoneArm := false,
          handoverArm := false, ackTimer := none
          seqClosed := s.disp.seqClosed || decide (s.disp.inFlight ≠ [] ∧ s.link.state = .up) } ∧
        t.pass = { s.pass with
          phase := .none, syncPos := 0, syncClock := 0, awaited := .none, refreshing := false, refreshPos := 0,
          refreshClock := 0 } ∧
        t.journals.queue = [] ∧
        (∀ k : Slot, t.journals.states[k] = (s.journals.states[k]).map fun _ => .desync) ∧
        t.apply = { s.apply with queue := [], written := 0, merged := none } ∧
        t.link.state = s.link.state ∧ t.link.view = s.link.view ∧ t.link.peer = s.link.peer ∧
        t.windows = s.windows ∧
        t.csu.result = { code := 0x14, result := .ok, field := 0, done := true } ∧
        t.mem = memDrive s.mem (commandAccess 0x14 rest check e)) ∧
    (s.rc.role ≠ .released →
      ∃ t, exec (.resume rest check e) s = .next t ∧
        t.unreported = (answered 0x15 rest check e .wrongRole 0 s).unreported) ∧
    (s.rc.role = .released → (s.link.view = .lost → s.csu.timing.takeoverAuto = false ∨ s.rc.claimIn = true) →
      (s.link.view = .paired →
        s.link.peer.role = .active ∨ s.link.peer.role = .handoff ∨ s.link.peer.role = .takeover) →
      ∃ t, exec (.resume rest check e) s = .next t ∧
        t.unreported =
          (answered 0x15 rest check e .ok 0
            { s with
              rc :=
                { s.rc with
                  role := .standby, claimOut := false, dual := .stopped, sync := .unsynced
                  epoch := maxEpoch s.rc.epoch s.link.peer.epoch
                  liveness := if s.csu.timing.livenessMs = 0 then none else some 0 }
              csu := { s.csu with pendingSet := s.csu.pendingSet ||| Notice.roleChanged.mask } }).unreported) ∧
    (s.rc.role = .released → s.link.view = .lost → s.csu.timing.takeoverAuto = true → s.rc.claimIn = false →
      s.apply.queue = [] →
      ∃ t, exec (.resume rest check e) s = .next t ∧
        t.rc.role = .active ∧ t.rc.claimOut = true ∧
        t.rc.epoch = maxEpoch s.rc.epoch s.link.peer.epoch + 1 ∧
        t.csu.result = { code := 0x15, result := .ok, field := 0, done := true }) ∧
    (s.rc.role = .released → s.rc.closing = false → s.link.view = .paired → s.apply.queue = [] →
      let wins : Prop :=
        s.link.peer.role = .released ∨
        (s.link.peer.role = .standby ∧ s.link.peer.sync ≠ .inSync ∧ s.rc.unit = .a)
      (wins → s.csu.timing.takeoverAuto = true → ∃ t, exec (.resume rest check e) s = .next t ∧
        t.rc.role = .active ∧ t.rc.epoch = maxEpoch s.rc.epoch s.link.peer.epoch + 1) ∧
      (wins → s.csu.timing.takeoverAuto = false → ∃ t, exec (.resume rest check e) s = .next t ∧
        t.rc.role = .standby ∧ t.rc.sync = .unsynced ∧ t.csu.pendingSet.getLsbD Notice.noActive.bit = true) ∧
      (s.link.peer.role = .standby → ¬ wins → ∃ t, exec (.resume rest check e) s = .next t ∧
        t.rc.role = .standby ∧ t.rc.sync = .unsynced ∧
        t.csu.pendingSet = s.csu.pendingSet ||| Notice.roleChanged.mask ||| Notice.commandDone.mask))

/-- RESYNC on a free bus with an idle CSU (R129): refused outside ACTIVE and without a paired STANDBY peer;
otherwise a full sync begins, or the one in progress begins again: every mark of a tag in use clear, U at the total
record count, position and clock 0, IN_STEP windows copying from 0, an armed SYNC_DONE withdrawn. SYNC_BEGIN is
armed unless a sync in progress has one in flight; that none is armed also where SYNC_DONE has been started behind the one
in flight is log entry 27's choice. -/
def Obligations.ResyncRestarts : Prop :=
  ∀ (rest : BitVec 56) (check : Byte) (e : BitVec 7) (s : State), BusFree s → s.csu.running = none →
    (s.rc.role ≠ .active →
      ∃ t, exec (.resync rest check e) s = .next t ∧
        t.unreported = (answered 0x20 rest check e .wrongRole 0 s).unreported) ∧
    (s.rc.role = .active → (s.link.view ≠ .paired ∨ s.link.peer.role ≠ .standby) →
      ∃ t, exec (.resync rest check e) s = .next t ∧
        t.unreported = (answered 0x20 rest check e .notPaired 0 s).unreported) ∧
    (s.rc.role = .active → s.link.view = .paired → s.link.peer.role = .standby →
      ∃ t, exec (.resync rest check e) s = .next t ∧
        (∀ n, n < totalRecords s.windows → tagAt t.rts n = { tagAt s.rts n with covered := false }) ∧
        (∀ n, totalRecords s.windows ≤ n → tagAt t.rts n = ⟨.clean, true⟩) ∧
        (∀ k : Slot, t.journals.states[k] =
          if s.journals.states[k] = some .inStep then some (.copying 0) else s.journals.states[k]) ∧
        t.unreported =
          (answered 0x20 rest check e .ok 0
            { s with
              rts := { t.rts with pointers := s.rts.pointers, outstanding := totalRecords s.windows }
              journals := { s.journals with states := t.journals.states }
              disp :=
                { s.disp with
                  syncBeginArm :=
                    s.disp.syncBeginArm || decide (s.pass.phase = .none ∨
                      ∀ x ∈ s.disp.inFlight, x.item ≠ .control .syncBegin)
                  syncDoneArm := s.disp.syncDoneArm && decide (s.pass.phase ≠ .completing) }
              pass :=
                { s.pass with phase := .passing, syncPos := 0, syncClock := 0, awaited := .none } }).unreported)

/-- QUERY_RECORD on a free bus with an idle CSU (R55, R175, R177): the state and the covered mark of the record's tag in
the result field, or BAD_ARGUMENT for a slot that is not RECORD and for an index of N or more. -/
def Obligations.QueryReports : Prop :=
  ∀ (rest : BitVec 56) (check : Byte) (e : BitVec 7) (s : State), BusFree s → s.csu.running = none →
    let i := bitsOf s.bpt.shadow[1] 32 16
    (7 < bitsOf s.bpt.shadow[1] 0 8 →
      ∃ t, exec (.queryRecord rest check e) s = .next t ∧
        t.unreported = (answered 0x21 rest check e .badArgument 0 s).unreported) ∧
    (∀ k : Slot, bitsOf s.bpt.shadow[1] 0 8 = k.val →
      (recordAt s.windows k = none →
        ∃ t, exec (.queryRecord rest check e) s = .next t ∧
          t.unreported = (answered 0x21 rest check e .badArgument 0 s).unreported) ∧
      (∀ w, recordAt s.windows k = some w →
        (w.count ≤ i →
          ∃ t, exec (.queryRecord rest check e) s = .next t ∧
            t.unreported = (answered 0x21 rest check e .badArgument 0 s).unreported) ∧
        (i < w.count →
          ∃ t, exec (.queryRecord rest check e) s = .next t ∧
            t.unreported =
              (answered 0x21 rest check e .ok
                ((match (tagAt s.rts (w.tagBase + i)).state with
                  | .clean => 0 | .stale => 1 | .dirty => 2 | .flight => 3 | .flightStale => 4 | .flightDirty => 5) +
                  if (tagAt s.rts (w.tagBase + i)).covered then 256 else 0) s).unreported)))

/-- UNKNOWN_COMMAND and COMMAND_OVERRUN on a free bus (R159, R161, R175): a code that names no command completes at
once with UNKNOWN_COMMAND; while a command runs, every trigger but STOP raises COMMAND_OVERRUN and is taken no
further, its write still merged and forwarded. -/
def Obligations.CommandsTurnedAway : Prop :=
  ∀ (rest : BitVec 56) (check : Byte) (e : BitVec 7) (s : State), BusFree s →
    (∀ code : Byte,
      code ∉ ([0x01, 0x02, 0x03, 0x10, 0x11, 0x12, 0x13, 0x14, 0x15, 0x20, 0x21] : List Byte) →
      s.csu.running = none →
      ∃ t, exec (.unknownCommand code rest check e) s = .next t ∧
        t.unreported = (answered code rest check e .unknownCommand 0 s).unreported) ∧
    (s.csu.running ≠ none →
      let overrun (c : Instr) (code : Byte) : Prop := ∃ t, exec c s = .next t ∧
        t.unreported =
          ({ s with
             bpt := { s.bpt with
               shadow := s.bpt.shadow.set 0 (mergeBytes s.bpt.shadow[0] (rest ++ code) (e ++ 1#1)) }
             csu := { s.csu with pendingSet := s.csu.pendingSet ||| Notice.commandOverrun.mask }
             mem := memDrive s.mem (commandAccess code rest check e) } : State).unreported
      overrun (.defineWindow rest check e) 0x01 ∧ overrun (.clearWindow rest check e) 0x02 ∧
      overrun (.setTiming rest check e) 0x03 ∧ overrun (.start rest check e) 0x10 ∧
      overrun (.switchover rest check e) 0x12 ∧ overrun (.takeOver rest check e) 0x13 ∧
      overrun (.release rest check e) 0x14 ∧ overrun (.resume rest check e) 0x15 ∧
      overrun (.resync rest check e) 0x20 ∧ overrun (.queryRecord rest check e) 0x21 ∧
      ∀ code : Byte, code ≠ 0x11 → overrun (.unknownCommand code rest check e) code)

/-! ## The pairing link -/

/-- INTERFACE_RESET_END, HELLO_INTERVAL, HELLO_STATE_TIMEOUT and TRAINING_BYTE_RECEIVED (R80, R81, R83): the clock runs
again after the reset, whatever the link state; a HELLO is waiting; a HELLO that lasted M × H returns to TRAIN with
alignment and HELLO progress discarded; in TRAIN 64 training bytes in a row align the receiver, any other byte starts
the count again, and the pattern of an aligned peer that arrives once the receiver is aligned brings HELLO. That the 64th
byte itself only aligns, where it is of that pattern too, is log entry 31's choice. Once aligned in TRAIN, an alignment idle or an idle
byte between frames ends a run of stray bytes, any other byte lengthens it, and its fourth byte loses the alignment, as
2 µs without an edge of the received clock do at any moment in TRAIN. -/
def Obligations.TrainingAndHello : Prop :=
  ∀ s : State, StallStands s →
    (s.link.state = .train → ∃ t, exec .receivedClockTimeout s = .next t ∧
      t.unreported =
        ({ s with
           link := { s.link with alignCount := 0, aligned := false, strayBytes := 0, incoming := none } } :
          State).unreported) ∧
    (s.link.state = .train → s.link.aligned = true → s.link.incoming = none → ∀ (v : Byte) (f g : Bool),
      ((f = false ∧ g = false ∧ v = 0x5A) ∨ (f = true ∧ g = false ∧ v = 0x4B) →
        ∃ t, exec (.trainingByteReceived v f g) s = .next t ∧
          t.unreported = ({ s with link := { s.link with strayBytes := 0 } } : State).unreported) ∧
      (byteKind v f g = .other → s.link.strayBytes ≠ 3 → ∃ t, exec (.trainingByteReceived v f g) s = .next t ∧
        t.unreported = ({ s with link := { s.link with strayBytes := s.link.strayBytes + 1 } } : State).unreported) ∧
      (byteKind v f g = .other → s.link.strayBytes = 3 →
        exec (.trainingByteReceived v f g) s = exec .receivedClockTimeout s) ∧
      exec (.byteBetweenFrames v f g) s = exec (.trainingByteReceived v f g) s) ∧
    (∃ t, exec .interfaceResetEnd s = .next t ∧
      t.unreported = ({ s with link := { s.link with resetTicks := none } } : State).unreported) ∧
    (s.link.state = .hello → ∃ t, exec .helloInterval s = .next t ∧
      t.unreported = ({ s with link := { s.link with helloWaiting := true } } : State).unreported) ∧
    (s.link.state = .hello → ∃ t, exec .helloStateTimeout s = .next t ∧
      t.unreported =
        ({ s with
           link :=
             { s.link with
               state := .train, divider := s.csu.timing.divider, resetTicks := some 0, alignCount := 0,
               aligned := false, strayBytes := 0, incoming := none, seen := false, helloPassed := false,
               helloSeenIn := false, helloSeenOut := false, helloWaiting := false, sending := none } } :
          State).unreported) ∧
    (s.link.state = .train → s.link.aligned = false → ∀ v : Byte,
      ((v = 0x4B ∨ v = 0xB4) → ∃ t, exec (.trainingByteReceived v true false) s = .next t ∧
        t.unreported =
          ({ s with
             link :=
               { s.link with
                 alignCount := s.link.alignCount + 1
                 aligned := decide (s.link.alignCount = 63)
                 strayBytes := 0 } } : State).unreported) ∧
      ∀ f g : Bool, (¬ (v = 0x4B ∨ v = 0xB4) ∨ f = false ∨ g = true) →
        ∃ t, exec (.trainingByteReceived v f g) s = .next t ∧
          t.unreported = ({ s with link := { s.link with alignCount := 0 } } : State).unreported) ∧
    (s.link.state = .train → s.link.aligned = true → s.link.incoming = none →
      ∃ t, exec (.trainingByteReceived 0xB4 true false) s = .next t ∧
        t.unreported =
          ({ s with
             link :=
               { s.link with
                 state := .hello, helloWaiting := true, helloClock := 0, helloAge := 0, helloPassed := false,
                 helloSeenIn := false, helloSeenOut := false, seen := false, strayBytes := 0 } } : State).unreported)

/-- BYTE_BETWEEN_FRAMES in HELLO, UP and INCOMPATIBLE (R78, R82, R89, R90, R172): between frames an idle or an
aligned-idle byte ends a run of stray bytes, another byte lengthens it, and the fourth stray byte in a row or one
alignment-idle byte is a loss of alignment, as RECEIVED_CLOCK_TIMEOUT is. FRAME high in both clock periods begins a
frame, and a frame being read to less than its length is ended short by it, dropped and counted. Every other byte belongs
to the frame being read, until its length by its header is complete. -/
def Obligations.BytesBetweenFrames : Prop :=
  ∀ s : State, StallStands s → s.link.state = .hello ∨ s.link.state = .up ∨ s.link.state = .incompatible →
    (∀ v f g, s.link.incoming = none → byteKind v f g = .idle ∨ byteKind v f g = .alignedIdle →
      ∃ t, exec (.byteBetweenFrames v f g) s = .next t ∧
        t.unreported = ({ s with link := { s.link with strayBytes := 0 } } : State).unreported) ∧
    (∀ v, ∃ t, exec (.byteBetweenFrames v true true) s = .next t ∧
      t.unreported =
        ({ s with
           link := { s.link with
             strayBytes := 0, incoming := some [v]
             crcErrors := if s.link.incoming = none then s.link.crcErrors else saturatingInc s.link.crcErrors } } :
          State).unreported) ∧
    (∀ v f g p, s.link.incoming = some p → f = false ∨ g = false →
      (lengthOf (p ++ [v]) ≠ some (p.length + 1) → ∃ t, exec (.byteBetweenFrames v f g) s = .next t ∧
        t.unreported = ({ s with link := { s.link with incoming := some (p ++ [v]) } } : State).unreported) ∧
      (lengthOf (p ++ [v]) = some (p.length + 1) → parseFrame (p ++ [v]) false = none →
        ∃ t, exec (.byteBetweenFrames v f g) s = .next t ∧
          t.unreported =
            ({ s with
               link := { s.link with
                 incoming := none, strayBytes := 0, crcErrors := saturatingInc s.link.crcErrors } } :
              State).unreported) ∧
      (∀ a, parseFrame (p ++ [v]) false = some (.ack a) →
        exec (.byteBetweenFrames v f g) s =
          exec (.ackReceived a) { s with link := { s.link with incoming := none } })) ∧
    (∀ v f g, s.link.incoming = none → byteKind v f g = .other → s.link.strayBytes ≠ 3 →
      ∃ t, exec (.byteBetweenFrames v f g) s = .next t ∧
        t.unreported = ({ s with link := { s.link with strayBytes := s.link.strayBytes + 1 } } : State).unreported) ∧
    (∀ v f g, s.link.incoming = none →
      byteKind v f g = .alignmentIdle ∨ (byteKind v f g = .other ∧ s.link.strayBytes = 3) →
      exec (.byteBetweenFrames v f g) s = exec .receivedClockTimeout s) ∧
    (s.link.state ≠ .up → ∃ t, exec .receivedClockTimeout s = .next t ∧
      t.unreported =
        ({ s with
           link :=
             { s.link with
               state := .train, divider := s.csu.timing.divider, resetTicks := some 0, alignCount := 0,
               aligned := false, strayBytes := 0, incoming := none, seen := false, helloPassed := false,
               helloSeenIn := false, helloSeenOut := false, helloWaiting := false, sending := none } } :
          State).unreported) ∧
    (byteKind 0x5A false false = .idle ∧ byteKind 0xB4 true false = .alignedIdle ∧
      byteKind 0x4B true false = .alignmentIdle ∧ (∀ v, byteKind v true true = .frameFirst) ∧
      (∀ v, byteKind v false true = .other) ∧ (∀ v, v ≠ 0x5A → byteKind v false false = .other) ∧
      ∀ v, v ≠ 0x4B → v ≠ 0xB4 → byteKind v true false = .other)

/-- RECEIVED_CLOCK_TIMEOUT, ACK_TIMER_EXPIRY and SEQUENCE_CLOSED_RETRAIN while the link is UP (R68, R69, R86, R87,
R128, R131, R150): the link is in TRAIN with view INTERRUPTED, LINK_DOWN is raised, the in-flight list and the
Journal Queue are empty, every journal window is DESYNC, the sync is aborted and the refresh pass stopped. A closing
sub-state ends in STANDBY, UNSYNCED, and HANDOFF before closing returns to ACTIVE, each with LINK_LOST; any other
role stands, with its apply queue. A journal write stalled on the full queue is driven to memory (R27). -/
def Obligations.LinkLeavesUp : Prop :=
  ∀ (c : Instr) (s : State), s.link.state = .up → RoleLaw s → StallStands s →
    (c = .receivedClockTimeout ∨ (c = .ackTimerExpiry ∧ s.disp.ackTimer.isSome = true) ∨
      (c = .sequenceClosedRetrain ∧ closedRetrainDue s = true)) →
    ∃ t, exec c s = .next t ∧
      t.link =
        { s.link with
          state := .train, view := .interrupted, ackWaiting := false, nakWaiting := false, seen := false,
          divider := s.csu.timing.divider, resetTicks := some 0, alignCount := 0, aligned := false, strayBytes := 0,
          incoming := none, helloPassed := false, helloSeenIn := false, helloSeenOut := false, helloWaiting := false,
          sending := none } ∧
      t.disp.inFlight = [] ∧ t.disp.readouts = Vector.replicate 4 none ∧ t.disp.ackTimer = none ∧
      t.disp.syncBeginArm = false ∧ t.disp.syncDoneArm = false ∧ t.disp.handoverArm = false ∧
      t.journals.queue = [] ∧
      (∀ k : Slot, t.journals.states[k] = (s.journals.states[k]).map fun _ => .desync) ∧
      t.pass = { s.pass with
        phase := .none, syncPos := 0, syncClock := 0, awaited := .none, refreshing := false, refreshPos := 0,
        refreshClock := 0 } ∧
      t.rts.outstanding = 0 ∧
      t.csu.pendingSet.getLsbD Notice.linkDown.bit = true ∧
      (s.rc.role = .handoff → s.rc.closing = true →
        t.rc = { s.rc with role := .standby, closing := false, handoff := none, sync := .unsynced, claimOut := false,
                           dual := .stopped } ∧
        t.rts.tags = [] ∧ t.apply.queue = [] ∧
        t.csu.result = { code := 0x12, result := .linkLost, field := 0, done := true } ∧ t.csu.running = none) ∧
      (s.rc.role = .handoff → s.rc.closing = false →
        t.rc = { s.rc with role := .active, closing := false, handoff := none } ∧ t.apply = s.apply ∧
        t.csu.result = { code := 0x12, result := .linkLost, field := 0, done := true } ∧ t.csu.running = none) ∧
      (s.rc.role ≠ .handoff → t.rc = s.rc ∧ t.apply = s.apply ∧ t.csu.result = s.csu.result ∧
        t.csu.running = s.csu.running) ∧
      (s.rc.closing = false → FlightLaw s → ∀ n,
        (tagAt t.rts n).state = (if n ∈ entryTags s then .dirty else (tagAt s.rts n).state) ∧
        (tagAt t.rts n).covered = (tagAt s.rts n).covered) ∧
      t.windows = s.windows ∧ t.csu.timing = s.csu.timing ∧
      ((∀ a n, s.bpt.held ≠ .stall a n) → t.mem = s.mem ∧ t.bpt.held = s.bpt.held) ∧
      (∀ a n, s.bpt.held = .stall a n → s.rc.closing = false → s.rc.bclkQuiet = none → s.bpt.waitCount < 32 →
        t.mem = memDrive s.mem a ∧ t.bpt.held = .none)

/-- FRAME_TRANSMIT_START in HELLO and UP (R56, R59, R60, R83, R97, R99, R110): NAK first, then ACK, HEARTBEAT in UP,
HELLO in HELLO, and last in UP the frame of the oldest entry not yet transmitted, if it is ready; otherwise nothing
starts. The previous frame has then been sent, but for a HELLO with its seen flag set in HELLO, whose last byte is
HELLO_TRANSMITTED (log entry 14). Nothing starts while the forwarded clock is stopped for an interface reset (R80).
Between frames the part drives nothing in OFF and in those 10 ticks, its training pattern in TRAIN, and the idle byte in
the other states, and of a frame its bytes with FRAME high in both clock periods of the first and low for the others
(R78 to R81, R172). A sequenced frame is ready, and carries its item, by the table of R59: a WORD entry at its start,
with slot, offset, byte mask and data; a BLOCK entry when its readout no longer reads, with slot, offset, copy-last and
the four words read; a record when its readout has decided RECORD, TOMBSTONE or DISCARD, a RECORD with the words read, K
first, put in position order (R61); a control item at its start. -/
def Obligations.TransmitterOrder : Prop :=
  (∀ l : Link,
    (l.state = .off ∨ l.resetTicks ≠ none → cableIdle l = none) ∧
    (l.state = .train → l.resetTicks = none →
      cableIdle l = some (if l.aligned then ⟨0xB4, true, false⟩ else ⟨0x4B, true, false⟩)) ∧
    (l.state = .hello ∨ l.state = .up ∨ l.state = .incompatible → l.resetTicks = none →
      cableIdle l = some ⟨0x5A, false, false⟩) ∧
    (∀ x, l.sending = some x → ∃ (b : Byte) (bs : List Byte), sendingBytes x = b :: bs ∧
      cableFrame l = ⟨b, true, true⟩ :: bs.map fun v => ⟨v, false, false⟩)) ∧
  (∀ s : State, (s.link.state ≠ .hello ∧ s.link.state ≠ .up) ∨ s.link.resetTicks ≠ none →
    ∃ t, exec .frameTransmitStart s = .next t ∧ t.unreported = s.unreported) ∧
  (∀ (s : State) (x : InFlight),
    let ready : Prop := frameReady s.disp x = true
    let reads (ro : Readout) : Prop := ∃ r, x.readout = some r ∧ s.disp.readouts[r] = some ro
    (∀ k f d m, x.item = .journal (.word k f d m) →
      ready ∧ frameBody s x = .journalWord k (BitVec.ofNat 16 f) m d) ∧
    (∀ k f l ro, x.item = .journal (.block k f l) → reads ro →
      (ready ↔ ro.reading = false) ∧
      ∀ w0 w1 w2 w3, ro.words.map (·.1) = [w0, w1, w2, w3] →
        frameBody s x = .journalBlock k (BitVec.ofNat 16 f) l w0 w1 w2 w3) ∧
    (∀ k i, x.item = .record k i →
      (ready ↔ x.form ≠ none) ∧
      (x.form = some .tombstone → frameBody s x = .tombstone k (BitVec.ofNat 16 i)) ∧
      (x.form = some .discard → frameBody s x = .discard k (BitVec.ofNat 16 i)) ∧
      ∀ ro w (g : Nat → DWord), x.form = some .record → reads ro → s.windows[k] = .record w → w.stateWord < w.size →
        ro.words.map (·.1) =
          g w.stateWord :: ((List.range w.size).filter fun p => decide (p ≠ w.stateWord)).map g →
        frameBody s x = .record k (BitVec.ofNat 16 i) ((List.range w.size).map g)) ∧
    (x.item = .control .syncBegin → ready ∧ frameBody s x = .syncBegin) ∧
    (∀ g, x.item = .control (.syncDone g) → ready ∧ frameBody s x = .syncDone g) ∧
    ∀ e, x.item = .control (.handover e) → ready ∧ frameBody s x = .handover e) ∧
  ∀ s : State, s.link.state = .hello ∨ s.link.state = .up → s.link.resetTicks = none →
    let ended (t : State) : Prop :=
      ((s.link.state = .hello ∧ ∃ h c, s.link.sending = some ⟨.hello h, c⟩ ∧ h.seen = true) →
        t.unreported = s.unreported) ∧
      (¬ (s.link.state = .hello ∧ ∃ h c, s.link.sending = some ⟨.hello h, c⟩ ∧ h.seen = true) →
        t.unreported = ({ s with link := { s.link with sending := none } } : State).unreported)
    (s.link.nakWaiting = true → ∃ t, exec .frameTransmitStart s = .next t ∧
      t.unreported =
        ({ s with
           link := { s.link with nakWaiting := false, sending := some ⟨.nak s.link.expected, false⟩ } } :
          State).unreported) ∧
    (s.link.nakWaiting = false → s.link.ackWaiting = true → ∃ t, exec .frameTransmitStart s = .next t ∧
      t.unreported =
        ({ s with
           link := { s.link with ackWaiting := false, sending := some ⟨.ack s.apply.applied, false⟩ }
           apply := { s.apply with lastAck := s.apply.applied } } : State).unreported) ∧
    (s.link.nakWaiting = false → s.link.ackWaiting = false → s.link.state = .up → s.link.heartbeatWaiting = true →
      ∃ t, exec .frameTransmitStart s = .next t ∧
        t.unreported =
          ({ s with
             link :=
               { s.link with
                 heartbeatWaiting := false
                 sending := some ⟨.heartbeat
                   ⟨s.rc.role, s.rc.sync, s.rc.epoch, s.pass.gen, s.apply.applied⟩, false⟩ } } : State).unreported) ∧
    (s.link.nakWaiting = false → s.link.ackWaiting = false → s.link.state = .hello → s.link.helloWaiting = true →
      ∃ t, exec .frameTransmitStart s = .next t ∧
        t.unreported =
          ({ s with
             link :=
               { s.link with
                 helloWaiting := false, helloClock := 0
                 sending := some ⟨.hello
                   ⟨s.rc.unit, s.rc.role, s.rc.sync, s.rc.epoch, s.pass.gen, s.link.seen,
                    tableGeometry s.windows⟩, false⟩ } } : State).unreported) ∧
    (s.link.nakWaiting = false → s.link.ackWaiting = false →
      (s.link.state = .up → s.link.heartbeatWaiting = false) → (s.link.state = .hello → s.link.helloWaiting = false) →
      (∀ x before after, s.disp.inFlight = before ++ x :: after → (∀ y ∈ before, y.transmitted = true) →
        x.transmitted = false → s.link.state = .up → (s.disp.inFlight.map (·.seq)).Nodup →
        (frameReady s.disp x = true → ∃ t, exec .frameTransmitStart s = .next t ∧
          t.link = { s.link with sending := some ⟨.sequenced ⟨x.seq, frameBody s x⟩, false⟩ } ∧
          t.disp.inFlight = before ++ { x with transmitted := true, readout := none } :: after ∧
          t.disp.readouts = (match x.readout with | some r => s.disp.readouts.set r none | none => s.disp.readouts) ∧
          t.apply = s.apply ∧ t.rts = s.rts ∧ t.journals = s.journals ∧ t.rc = s.rc ∧ t.pass = s.pass ∧
          t.mem = s.mem) ∧
        (frameReady s.disp x = false → ∃ t, exec .frameTransmitStart s = .next t ∧ ended t)) ∧
      ((∀ x ∈ s.disp.inFlight, x.transmitted = true) ∨ s.link.state = .hello →
        ∃ t, exec .frameTransmitStart s = .next t ∧ ended t))

/-- The move to UP (R83 to R85, R94, R118, R119, R137, R142), by a local HELLO that has been sent with its seen flag
set or by a valid peer HELLO that says seen, whichever comes second: view PAIRED, LINK_UP, the sequence numbers, A and the
value last acknowledged 0, the sequence-closed flag clear. A STANDBY peer of a claiming part brings the pairing decision;
a STANDBY part whose peer claims nothing brings the no-active rule. A local HELLO sent before a peer HELLO has said seen
only counts. That no unit wins the no-active rule over a peer in INIT is log entry 29's choice. -/
def Obligations.HelloMovesUp : Prop :=
  ∀ s : State, s.link.state = .hello → StallStands s →
    (∀ h d, s.link.sending = some ⟨.hello h, d⟩ → h.seen = true → s.link.helloSeenIn = false →
      peerSilent s = false → ∃ t, exec .helloTransmitted s = .next t ∧
        t.unreported = ({ s with link := { s.link with helloSeenOut := true, sending := none } } : State).unreported) ∧
    ∀ (c : Instr) (l : Link) (e : Epoch),
      ((∃ h d, c = .helloTransmitted ∧ s.link.sending = some ⟨.hello h, d⟩ ∧ h.seen = true ∧
          s.link.helloSeenIn = true ∧ l = { s.link with helloSeenOut := true, sending := none } ∧ e = s.rc.epoch) ∨
        (∃ h, c = .helloReceived h ∧ s.link.helloSeenOut = true ∧ (s.link.helloSeenIn || h.seen) = true ∧
          s.link.incoming = none ∧ h.geometry = tableGeometry s.windows ∧ h.unit ≠ s.rc.unit ∧
          ¬ (claims h.role = true ∧ claims s.rc.role = true) ∧
          l = { s.frameCounted with
            peer := ⟨h.role, h.sync, h.epoch, h.gen⟩, helloPassed := true
            helloSeenIn := true, seen := s.link.seen || decide (s.apply.queue = []) } ∧
          e = if s.rc.role = .standby then maxEpoch s.rc.epoch h.epoch else s.rc.epoch)) →
      let up : Link := { l with
        state := .up, nextSeq := 0, expected := 0, nakPending := false, ackWaiting := false, nakWaiting := false,
        view := .paired, helloWaiting := false }
      let u : State := { s with
        link := up, apply := { s.apply with applied := 0, lastAck := 0 }, disp := { s.disp with seqClosed := false }
        rc := { s.rc with epoch := e }, csu := { s.csu with pendingSet := s.csu.pendingSet ||| Notice.linkUp.mask } }
      let claimer : Prop := s.rc.role = .active ∨ s.rc.role = .handoff
      let agree : Prop := l.peer.sync = .inSync ∧ l.peer.epoch = e ∧ l.peer.gen = s.pass.gen
      let quiet : Prop := s.rc.role = .standby ∧ l.peer.role ≠ .active ∧ l.peer.role ≠ .handoff ∧ l.peer.role ≠ .takeover
      (quiet → s.link.view ≠ .paired → s.rc.closing = false → NoActiveJudged c s u) ∧
      (¬ quiet → ¬ (claimer ∧ l.peer.role = .standby) →
        ∃ t, exec c s = .next t ∧ t.unreported = u.unreported) ∧
      (claimer → l.peer.role = .standby → agree → ∃ t, exec c s = .next t ∧
        t.unreported =
          ({ u with
             pass := { s.pass with
               refreshing := decide (1 ≤ refreshTotal s.windows), refreshPos := 0, refreshClock := 0 } } :
            State).unreported) ∧
      (claimer → l.peer.role = .standby → ¬ agree → ∃ t, exec c s = .next t ∧
        t.link = up ∧ t.apply = u.apply ∧ t.rc = u.rc ∧ t.windows = s.windows ∧ t.mem = s.mem ∧
        t.csu.pendingSet = u.csu.pendingSet ∧
        t.pass = { s.pass with
          phase := .passing, syncPos := 0, syncClock := 0, awaited := .none,
          refreshing := decide (1 ≤ refreshTotal s.windows), refreshPos := 0, refreshClock := 0 } ∧
        t.disp = { s.disp with seqClosed := false, syncBeginArm := true } ∧
        t.rts.outstanding = totalRecords s.windows ∧ t.journals.queue = s.journals.queue ∧
        (∀ k : Slot, t.journals.states[k] =
          if s.journals.states[k] = some .inStep then some (.copying 0) else s.journals.states[k]) ∧
        ∀ n, n < totalRecords s.windows → tagAt t.rts n = { tagAt s.rts n with covered := false })

/-- HELLO_RECEIVED between frames (R81, R83, R84, R92, R94, R137, R142): in HELLO the geometry and the unit are checked:
a mismatch brings INCOMPATIBLE and its notice; a match enters the peer record and sets the seen flag once the apply queue
is empty. In UP the frame is entered without a check, as a HEARTBEAT that carries its record and an A that acknowledges
nothing is, so that a change of the peer's role does in every role of the part what HeartbeatEntered says; a change of
the record's role or sync state that leaves a STANDBY part with a peer that claims nothing brings the no-active rule. In
TRAIN after alignment it brings HELLO first. In INCOMPATIBLE it only counts, whatever it carries. In OFF nothing is
received, and in TRAIN before alignment its bytes only end a run of training bytes. That the geometry is compared in all
16 bits of V, so that a HELLO with a bit of V at a position S or above fails the check, is log entry 25's choice, which
no rule decides. That a HELLO being sent gives way at once at a mismatch, where R56 has a started frame sent whole, is
log entry 28's, and that no unit wins the no-active rule over a peer in INIT is log entry 29's. Two claims, the move to
UP, and a silent peer whose claim R141 lets a STANDBY part take, have statements of their own. -/
def Obligations.HelloChecked : Prop :=
  ∀ (h : HelloFrame) (s : State), StallStands s → peerSilent s = false → s.link.incoming = none →
    (s.link.state = .incompatible → ∃ t, exec (.helloReceived h) s = .next t ∧
      t.unreported =
        ({ s with link := s.frameCounted } : State).unreported) ∧
    (s.link.state = .up → ¬ (claims h.role = true ∧ claims s.rc.role = true) →
      exec (.helloReceived h) s =
        exec (.heartbeatReceived ⟨h.role, h.sync, h.epoch, h.gen, oldestSeq s⟩ true) s) ∧
    (¬ (claims h.role = true ∧ claims s.rc.role = true) →
    let record : PeerRecord := ⟨h.role, h.sync, h.epoch, h.gen⟩
    let epoch := if s.rc.role = .standby then maxEpoch s.rc.epoch h.epoch else s.rc.epoch
    let claimed : Prop := h.role = .active ∨ h.role = .handoff ∨ h.role = .takeover
    let entered : State :=
      { s with
        link := { s.frameCounted with peer := record }
        rc := { s.rc with epoch := epoch } }
    (s.link.state = .hello →
      (h.geometry ≠ tableGeometry s.windows ∨ h.unit = s.rc.unit) →
      ∃ t, exec (.helloReceived h) s = .next t ∧
        t.unreported =
          ({ s with
             link := { s.frameCounted with state := .incompatible, helloWaiting := false, sending := none }
             csu := { s.csu with pendingSet := s.csu.pendingSet ||| Notice.incompatible.mask } } :
            State).unreported) ∧
    (s.link.state = .hello → s.link.view ≠ .paired → h.geometry = tableGeometry s.windows →
      h.unit ≠ s.rc.unit → (s.link.helloSeenOut = false ∨ (s.link.helloSeenIn || h.seen) = false) →
      ∃ t, exec (.helloReceived h) s = .next t ∧
        t.unreported =
          ({ entered with
             link := { entered.link with
               helloPassed := true
               helloSeenIn := s.link.helloSeenIn || h.seen
               seen := s.link.seen || decide (s.apply.queue = []) } } : State).unreported) ∧
    (s.link.state = .up → s.link.view = .paired → h.role = s.link.peer.role → s.rc.closing = false →
      (s.rc.role = .standby → claimed ∨ h.sync = s.link.peer.sync) →
      ∃ t, exec (.helloReceived h) s = .next t ∧ t.unreported = entered.unreported) ∧
    (s.link.state = .up → s.link.view = .paired → s.rc.closing = false → s.rc.role = .standby → ¬ claimed →
      (h.role ≠ s.link.peer.role ∨ h.sync ≠ s.link.peer.sync) → NoActiveJudged (.helloReceived h) s entered) ∧
    (s.link.state = .train → s.link.aligned = true → ∃ t, exec (.helloReceived h) s = .next t ∧
      (t.link.state = .hello ∨ t.link.state = .incompatible) ∧ t.link.frameInPeriod = s.frameCounted.frameInPeriod ∧
      t.link.frameAtBoundary = s.frameCounted.frameAtBoundary ∧
      (t.link.state = .incompatible ↔ h.geometry ≠ tableGeometry s.windows ∨ h.unit = s.rc.unit)) ∧
    (s.link.state = .off → ∃ t, exec (.helloReceived h) s = .next t ∧ t.unreported = s.unreported) ∧
    (s.link.state = .train → s.link.aligned = false → ∃ t, exec (.helloReceived h) s = .next t ∧
      t.unreported = ({ s with link := { s.link with alignCount := 0 } } : State).unreported))

/-- HEARTBEAT_RECEIVED between frames (R92, R94, R137): in UP its role, sync state, E and G replace the peer record, a
STANDBY part takes a greater E, and its A is resolved; in the other states that check frames it only counts as a frame, in
OFF nothing is received, and in TRAIN before alignment its bytes only end a run of training bytes.
A peer that leaves STANDBY ends the sequence stream of a sending part (R69), one that enters it brings the pairing
decision (R118), and a peer that claims nothing the no-active rule (R142). In HANDOFF a peer that leaves STANDBY before
closing returns the part to ACTIVE with NOT_PAIRED, as one that becomes RELEASED in closing does (R150); in closing a peer
in TAKEOVER or ACTIVE ends the handoff with success: STANDBY, IN_SYNC, the new E, OK (R148). A TAKEOVER or RELEASED part
only enters the record. That closing goes on with a
peer in HANDOFF or INIT, and returns with a peer that becomes RELEASED after it, is log entry 12's choice. That no unit
wins the no-active rule over a peer in INIT is log entry 29's. -/
def Obligations.HeartbeatEntered : Prop :=
  ∀ (h : HeartbeatFrame) (b : Bool) (s : State), StallStands s → peerSilent s = false → s.link.incoming = none →
    let record : PeerRecord := ⟨h.role, h.sync, h.epoch, h.gen⟩
    let counted : Link := { s.frameCounted with peer := record }
    let epoch := if s.rc.role = .standby then maxEpoch s.rc.epoch h.epoch else s.rc.epoch
    let entered : State := { s with link := counted, rc := { s.rc with epoch := epoch } }
    let claimed : Prop := h.role = .active ∨ h.role = .handoff ∨ h.role = .takeover
    (s.link.state ≠ .up → checksFrames s.link = true →
      ∃ t, exec (.heartbeatReceived h b) s = .next t ∧
        t.unreported =
          ({ s with link := s.frameCounted } : State).unreported) ∧
    (s.link.state = .off → ∃ t, exec (.heartbeatReceived h b) s = .next t ∧ t.unreported = s.unreported) ∧
    (s.link.state = .train → s.link.aligned = false → ∃ t, exec (.heartbeatReceived h b) s = .next t ∧
      t.unreported = ({ s with link := { s.link with alignCount := 0 } } : State).unreported) ∧
    (s.link.state = .up → s.link.view = .paired → h.role = s.link.peer.role → h.applied = oldestSeq s →
      s.rc.closing = false → (s.rc.role = .standby → claimed ∨ h.sync = s.link.peer.sync) →
      ∃ t, exec (.heartbeatReceived h b) s = .next t ∧ t.unreported = entered.unreported) ∧
    (s.link.state = .up → s.link.view = .paired → s.rc.closing = false → s.rc.role = .standby → ¬ claimed →
      s.disp.inFlight = [] → h.applied = s.link.nextSeq →
      (h.role ≠ s.link.peer.role ∨ h.sync ≠ s.link.peer.sync) → NoActiveJudged (.heartbeatReceived h b) s entered) ∧
    (s.link.state = .up → s.rc.role = .active → s.link.peer.role = .standby → h.role ≠ .standby →
      h.applied = oldestSeq s → SequenceLaw s →
      ∃ t, exec (.heartbeatReceived h b) s = .next t ∧
        t.link = counted ∧ t.rc = s.rc ∧ t.disp.inFlight = [] ∧ t.journals.queue = [] ∧
        t.disp.seqClosed = (s.disp.seqClosed || !s.disp.inFlight.isEmpty) ∧
        t.pass.phase = .none ∧ t.pass.refreshing = false ∧
        (∀ a n, s.bpt.held = .stall a n → s.rc.bclkQuiet = none → s.bpt.waitCount < 32 →
          t.bpt.held = .none ∧ t.mem = memDrive s.mem a ∧ t.bpt.suppressed = s.bpt.suppressed)) ∧
    (s.link.state = .up → s.rc.role = .active → s.link.peer.role ≠ .standby → h.role = .standby →
      s.disp.inFlight = [] → h.applied = s.link.nextSeq →
      ∃ t, exec (.heartbeatReceived h b) s = .next t ∧
        t.link = counted ∧ t.rc = s.rc ∧
        t.pass.refreshing = decide (1 ≤ refreshTotal s.windows) ∧ t.pass.refreshPos = 0 ∧
        (h.sync = .inSync → h.epoch = s.rc.epoch → h.gen = s.pass.gen →
          t.pass.phase = s.pass.phase ∧ t.disp.syncBeginArm = s.disp.syncBeginArm ∧ t.rts = s.rts) ∧
        (¬ (h.sync = .inSync ∧ h.epoch = s.rc.epoch ∧ h.gen = s.pass.gen) →
          t.pass.phase = .passing ∧ t.disp.syncBeginArm = true ∧
          t.rts.outstanding = totalRecords s.windows)) ∧
    (s.link.state = .up → s.rc.role = .handoff → h.applied = oldestSeq s → SequenceLaw s → RoleLaw s → LinkLaw s →
      let ends (rc : RoleController) (r : ResultCode) : Prop :=
        ∃ t, exec (.heartbeatReceived h b) s = .next t ∧ t.link = counted ∧ t.rc = rc ∧ t.csu.running = none ∧
          t.csu.result = { code := 0x12, result := r, field := 0, done := true } ∧
          ((∀ a n, s.bpt.held ≠ .stall a n) → t.mem = s.mem)
      let kept : RoleController := { s.rc with role := .active, closing := false, handoff := none }
      let given : RoleController := { s.rc with
        role := .standby, closing := false, handoff := none, sync := .inSync, claimOut := false, dual := .stopped
        epoch := if h.role = .active then h.epoch else maxEpoch s.rc.epoch h.epoch + 1 }
      (s.rc.closing = false → s.link.peer.role = .standby → h.role ≠ .standby → ends kept .notPaired) ∧
      (s.rc.closing = true → h.role = .takeover ∨ h.role = .active → ends given .ok) ∧
      (s.rc.closing = true → s.link.peer.role ≠ .released → h.role = .released → ends kept .notPaired) ∧
      (s.rc.closing = true → h.role = .handoff ∨ h.role = .init ∨ h.role = .standby →
        ∃ t, exec (.heartbeatReceived h b) s = .next t ∧ t.link = counted ∧ t.rc = s.rc ∧
          t.csu.result = s.csu.result ∧ t.csu.running = s.csu.running)) ∧
    (s.link.state = .up → s.rc.role = .active → s.link.peer.role ≠ .standby → h.role ≠ .standby →
      h.applied = oldestSeq s →
      ∃ t, exec (.heartbeatReceived h b) s = .next t ∧ t.unreported = entered.unreported) ∧
    (s.link.state = .up → s.rc.role = .takeover ∨ s.rc.role = .released → s.disp.inFlight = [] →
      h.applied = s.link.nextSeq →
      ∃ t, exec (.heartbeatReceived h b) s = .next t ∧
        (s.link.peer.role ≠ .standby ∨ h.role = .standby → t.unreported = entered.unreported) ∧
        t.link = counted ∧ t.rc = s.rc ∧ t.apply = s.apply ∧ t.mem = s.mem ∧ t.windows = s.windows ∧
        t.disp.inFlight = [] ∧ t.disp.seqClosed = s.disp.seqClosed ∧ t.rts.tags = s.rts.tags) ∧
    (s.link.state = .up → s.rc.role ≠ .standby → s.rc.role ≠ .handoff → record = s.link.peer →
      exec (.heartbeatReceived h b) s = exec (.ackReceived h.applied) s)

/-- ACK_RECEIVED between frames in UP (R42, R52, R53, R66, R68, R72): with A between one and as many as are transmitted
after the oldest entry, that many entries leave, the records among them are acknowledged and the Journal Queue loses
their entries; with A at the oldest entry or before it nothing is resolved; any other A is a protocol error. In HANDOFF
before closing the part then enters closing exactly where it has converged, the handoff timer stopped and HANDOVER armed
(R147); in closing the acknowledgement of HANDOVER ends the handoff with success: STANDBY, IN_SYNC, the new E, OK (R138,
R148). The acknowledged copy-last block makes its COPYING window IN_STEP (R76), and the awaited SYNC_DONE ends the sync
(R127); no other journal state changes. That an A exactly 32,768 after the oldest entry is a protocol error is log entry
10's choice. Outside UP the frame only counts where frames are checked (R92), in OFF nothing is received, and in TRAIN
before alignment its bytes only end a run of training bytes (R81). -/
def Obligations.AppliedResolved : Prop :=
  ∀ (a : SeqNo) (s : State), StallStands s → s.link.incoming = none →
    (s.link.state ≠ .up → checksFrames s.link = true → ∃ t, exec (.ackReceived a) s = .next t ∧
      t.unreported =
        ({ s with link := s.frameCounted } : State).unreported) ∧
    (s.link.state = .off → ∃ t, exec (.ackReceived a) s = .next t ∧ t.unreported = s.unreported) ∧
    (s.link.state = .train → s.link.aligned = false → ∃ t, exec (.ackReceived a) s = .next t ∧
      t.unreported = ({ s with link := { s.link with alignCount := 0 } } : State).unreported) ∧
    (s.link.state = .up →
    let n := (a - oldestSeq s).toNat
    let counted : Link := s.frameCounted
    let handed : Prop := ∃ x ∈ s.disp.inFlight.take n, ∃ e, x.item = .control (.handover e)
    let opening : Prop := s.rc.role = .handoff ∧ s.rc.closing = false
    (1 ≤ n → n ≤ transmittedCount s.disp → ¬ (s.rc.role = .handoff ∧ s.rc.closing = true ∧ handed) → FlightLaw s →
      JournalLaw s →
      ∃ t, exec (.ackReceived a) s = .next t ∧
        t.disp.inFlight = s.disp.inFlight.drop n ∧ t.link = counted ∧
        (let done : Prop :=
          opening ∧ dirtyTotal t.rts = 0 ∧ flightTotal t.rts = 0 ∧ t.journals.queue = [] ∧ t.pass.phase = .none ∧
            ∀ k : Slot, t.journals.states[k] = none ∨ t.journals.states[k] = some .inStep
         (¬ done → t.rc = s.rc ∧ t.disp.handoverArm = s.disp.handoverArm) ∧
         (done → t.rc = { s.rc with closing := true, handoff := none } ∧ t.disp.handoverArm = true)) ∧
        t.disp.ackTimer = (if s.disp.inFlight.length ≤ n then none else some 0) ∧
        t.journals.queue =
          s.journals.queue.drop ((s.disp.inFlight.take n).filterMap InFlight.journalEntry).length ∧
        (∀ m, tagAt t.rts m =
          if m ∈ (s.disp.inFlight.take n).filterMap (entryTag s.windows)
          then tagAfter .acknowledgement (tagAt s.rts m) else tagAt s.rts m) ∧
        (∀ k : Slot,
          let copied : Bool := (s.disp.inFlight.take n).any fun x =>
            match x.item with
            | .journal (.block j _ true) => decide (j = k)
            | _ => false
          t.journals.states[k] =
            if isCopying s.journals.states[k] = true ∧ copied = true then some .inStep else s.journals.states[k]) ∧
        (s.pass.phase = .completing → (∃ x ∈ s.disp.inFlight.take n, ∃ g,
            x.item = .control (.syncDone g) ∧ s.pass.awaited = .started x.seq) →
          t.pass = { s.pass with phase := .none, awaited := .none } ∧
          t.csu.pendingSet.getLsbD Notice.syncDone.bit = true) ∧
        t.mem = s.mem ∧ t.windows = s.windows ∧ t.apply = s.apply) ∧
    (1 ≤ n → n ≤ transmittedCount s.disp → s.rc.role = .handoff → s.rc.closing = true → handed → RoleLaw s →
      ∃ t, exec (.ackReceived a) s = .next t ∧ t.link = counted ∧ t.disp.inFlight = [] ∧ t.journals.queue = [] ∧
        t.rts = { tags := [], pointers := Vector.replicate 8 0, outstanding := 0 } ∧ t.pass.refreshing = false ∧
        t.rc = { s.rc with
          role := .standby, closing := false, handoff := none, sync := .inSync, claimOut := false, dual := .stopped
          epoch := if s.link.peer.role = .active then s.link.peer.epoch
                   else maxEpoch s.rc.epoch s.link.peer.epoch + 1 } ∧
        t.csu.running = none ∧ t.csu.result = { code := 0x12, result := .ok, field := 0, done := true }) ∧
    (n = 0 ∨ (transmittedCount s.disp < n ∧ 32769 ≤ n) →
      ∃ t, exec (.ackReceived a) s = .next t ∧ t.unreported = ({ s with link := counted } : State).unreported) ∧
    (transmittedCount s.disp < n → n ≤ 32768 →
      ∃ t, exec (.ackReceived a) s = .next t ∧
        t.unreported =
          ({ s with link := { counted with protocolErrors := saturatingInc s.link.protocolErrors } } :
            State).unreported))

/-- NAK_RECEIVED between frames (R43, R59, R67, R68, R92): in UP a number among the transmitted entries takes a go-back:
those entries and all after them leave, the numbers are assigned again from that one, their records are DIRTY, their
journal entries unsent and their control items armed. A frame of theirs that was started last, with no frame boundary
since, either has left with its last byte or ends with its CRC inverted; no other is cut. No row tells which, and a free
value does (log entry 14). That R67 arms a SYNC_DONE again which a RESYNC has made stale, where R126 and R129 name none,
is log entry 22's choice. Any other number changes nothing. Outside UP the frame only counts where frames are checked,
in OFF nothing is received, and in TRAIN before alignment its bytes only end a run of training bytes (R81). -/
def Obligations.NakGoesBack : Prop :=
  ∀ (q : SeqNo) (s : State), s.link.incoming = none →
    (s.link.state ≠ .up → checksFrames s.link = true → ∃ t, exec (.nakReceived q) s = .next t ∧
      t.unreported =
        ({ s with link := s.frameCounted } : State).unreported) ∧
    (s.link.state = .off → ∃ t, exec (.nakReceived q) s = .next t ∧ t.unreported = s.unreported) ∧
    (s.link.state = .train → s.link.aligned = false → ∃ t, exec (.nakReceived q) s = .next t ∧
      t.unreported = ({ s with link := { s.link with alignCount := 0 } } : State).unreported) ∧
    (s.link.state = .up →
    let n := (q - oldestSeq s).toNat
    let gone := s.disp.inFlight.drop n
    (n < transmittedCount s.disp → FlightLaw s → SequenceLaw s → JournalLaw s →
      ∃ t, exec (.nakReceived q) s = .next t ∧
        t.disp.inFlight = s.disp.inFlight.take n ∧
        t.link =
          { s.frameCounted with nextSeq := q, sending := t.link.sending } ∧
        (∀ f c, s.link.sending = some ⟨.sequenced f, c⟩ → (∃ y ∈ gone, y.seq = f.seq) →
          t.link.sending = none ∨ t.link.sending = some ⟨.sequenced f, true⟩) ∧
        ((∀ f c, s.link.sending = some ⟨.sequenced f, c⟩ → ∀ y ∈ gone, y.seq ≠ f.seq) →
          t.link.sending = s.link.sending) ∧
        t.disp.ackTimer = (if n = 0 then none else some 0) ∧
        (∀ m, (tagAt t.rts m).state =
            (if m ∈ gone.filterMap (entryTag s.windows) then .dirty else (tagAt s.rts m).state) ∧
          (tagAt t.rts m).covered = (tagAt s.rts m).covered) ∧
        t.journals.queue.map (·.entry) = s.journals.queue.map (·.entry) ∧ JournalLaw t ∧
        t.journals.states = s.journals.states ∧
        (t.disp.syncBeginArm = (s.disp.syncBeginArm || gone.any fun y => decide (y.item = .control .syncBegin))) ∧
        (t.disp.syncDoneArm =
          (s.disp.syncDoneArm || gone.any fun y => match y.item with | .control (.syncDone _) => true | _ => false)) ∧
        (t.disp.handoverArm =
          (s.disp.handoverArm || gone.any fun y => match y.item with | .control (.handover _) => true | _ => false)) ∧
        t.rc = s.rc ∧ t.apply = s.apply ∧ t.mem = s.mem ∧ t.windows = s.windows) ∧
    (transmittedCount s.disp ≤ n →
      ∃ t, exec (.nakReceived q) s = .next t ∧
        t.unreported =
          ({ s with link := s.frameCounted } : State).unreported))

/-- SEQUENCED_FRAME_RECEIVED between frames (R90, R93, R95 to R98): a frame that fails the window checks of R90 is invalid
and counted. RECORD, TOMBSTONE and DISCARD pass them where the slot is of kind RECORD and the index is below its N, RECORD
with S words only; JOURNAL_WORD where the slot is of kind JOURNAL and the offset is below its L; JOURNAL_BLOCK where the
slot is of kind JOURNAL and the offset is a multiple of 4 not above L − 4; the control frames always. Of the frames that
pass, on a STANDBY part in UP the expected one joins the apply queue while it has room, a full queue is a protocol error
and a gap, an old frame asks for an ACK, and a gap asks for one NAK; in every other role or link state the frame only
counts. A frame exactly 32,768 away is discarded by the model's choice (log entry 10). -/
def Obligations.SequencedJudged : Prop :=
  (∀ (s : State) (k : Slot),
    let known (b : SeqBody) : Prop := namesKnown s.windows b = true
    (∀ i ws, known (.record k i ws) ↔ ∃ w, s.windows[k] = .record w ∧ i.toNat < w.count ∧ ws.length = w.size) ∧
    (∀ i, known (.tombstone k i) ↔ ∃ w, s.windows[k] = .record w ∧ i.toNat < w.count) ∧
    (∀ i, known (.discard k i) ↔ ∃ w, s.windows[k] = .record w ∧ i.toNat < w.count) ∧
    (∀ o m d, known (.journalWord k o m d) ↔ ∃ w, s.windows[k] = .journal w ∧ o.toNat < w.length) ∧
    (∀ o l w0 w1 w2 w3, known (.journalBlock k o l w0 w1 w2 w3) ↔
      ∃ w, s.windows[k] = .journal w ∧ o.toNat % 4 = 0 ∧ o.toNat + 4 ≤ w.length) ∧
    known .syncBegin ∧ (∀ g, known (.syncDone g)) ∧ ∀ e, known (.handover e)) ∧
  ∀ (f : SeqFrame) (s : State), checksFrames s.link = true → peerSilent s = false → s.link.incoming = none →
    let counted : Link := s.frameCounted
    let gap (l : Link) : Link := if l.nakPending then l else { l with nakPending := true, nakWaiting := true }
    let n := (f.seq - s.link.expected).toNat
    let becomes (t' : State) : Prop := ∃ t, exec (.sequencedFrameReceived f) s = .next t ∧ t.unreported = t'.unreported
    (namesKnown s.windows f.body = false →
      becomes { s with link := { s.link with crcErrors := saturatingInc s.link.crcErrors, strayBytes := 0 } }) ∧
    (namesKnown s.windows f.body = true →
      (s.rc.role ≠ .standby ∨ s.link.state ≠ .up → becomes { s with link := counted }) ∧
      (s.rc.role = .standby → s.link.state = .up → s.link.view = .paired →
        (n = 0 → s.apply.queue.length < 16 → (s.apply.queue ≠ [] ∨ immediate f.body = false) →
          becomes
            { s with
              link := { counted with expected := s.link.expected + 1, nakPending := false, nakWaiting := false }
              apply := { s.apply with queue := s.apply.queue ++ [f] } }) ∧
        (n = 0 → 16 ≤ s.apply.queue.length →
          becomes { s with
            link := gap { counted with protocolErrors := saturatingInc s.link.protocolErrors } }) ∧
        (32769 ≤ n → becomes { s with link := { counted with ackWaiting := true } }) ∧
        (1 ≤ n → n ≤ 32767 → becomes { s with link := gap counted }) ∧
        (n = 32768 → becomes { s with link := counted })))

/-- INVALID_FRAME: the bytes of a frame as they arrive, over a frame that may still be being read (R78, R81, R89, R90,
R92). Bytes that make a frame of its kind's length with a CRC that matches are taken as that frame, an A with its record
in the order ackFirst true (log entry 19). Bytes of that length are dropped and counted where the CRC does not match, and
where the window byte of a type 5 to 9 names no slot (log entry 15). Bytes of less than the length their header gives,
or whose header gives none, are read on, and are dropped and counted where the first byte of the next frame ends them
short. A byte behind a complete frame is no part of it. In OFF no byte is received, and in TRAIN before alignment none of
them is a training byte. -/
def Obligations.InvalidDropped : Prop :=
  ∀ (l : List Byte) (cut : Bool) (s : State), StallStands s →
    let ended : Link :=
      { s.link with
        incoming := none, strayBytes := 0
        crcErrors := if s.link.incoming = none then s.link.crcErrors else saturatingInc s.link.crcErrors }
    let dropped : Link := { ended with crcErrors := saturatingInc ended.crcErrors }
    let becomes (bytes : List Byte) (x : Link) : Prop := ∃ t, exec (.invalidFrame bytes cut) s = .next t ∧
      t.unreported = ({ s with link := x } : State).unreported
    let complete : Prop := lengthOf l = some l.length
    let bad : Prop :=
      fieldAt l (l.length - 4) 4 ≠ (crc (l.take (l.length - 4))).toNat ∨
      (5 ≤ fieldAt l 0 1 ∧ fieldAt l 0 1 ≤ 9 ∧ 8 ≤ fieldAt l 1 1)
    (∀ h, parseFrame l false = some (.hello h) → exec (.invalidFrame l cut) s = exec (.helloReceived h) s) ∧
    (∀ h, parseFrame l false = some (.heartbeat h) →
      exec (.invalidFrame l cut) s = exec (.heartbeatReceived h true) s) ∧
    (∀ a, parseFrame l false = some (.ack a) → exec (.invalidFrame l cut) s = exec (.ackReceived a) s) ∧
    (∀ e, parseFrame l false = some (.nak e) → exec (.invalidFrame l cut) s = exec (.nakReceived e) s) ∧
    (∀ f, parseFrame l false = some (.sequenced f) → exec (.invalidFrame l cut) s = exec (.sequencedFrameReceived f) s) ∧
    (checksFrames s.link = true →
      (complete → bad → becomes l dropped ∧
        ∀ b : Byte, b ≠ 0x5A → cut = false → becomes (l ++ [b]) { dropped with strayBytes := 1 }) ∧
      (l ≠ [] → (∀ n, n ≤ l.length → lengthOf (l.take n) ≠ some n) →
        becomes l (if cut then dropped else { ended with incoming := some l }))) ∧
    (s.link.state = .off → becomes l s.link) ∧
    (s.link.state = .train → s.link.aligned = false → l ≠ [] → becomes l { s.link with alignCount := 0 })

/-- HEARTBEAT_PERIOD_BOUNDARY between START and STOP (R99 to R101, R141): a period with a valid frame sets the miss count
to 0, one without adds 1 up to M; the count that reaches M in a view that is LOST changes no more, and in any other it
makes the view LOST and raises PEER_LOST, taking the link out of UP, by which a HANDOFF ends with LINK_LOST (R150):
before closing the part returns to ACTIVE, in closing it is demoted, UNSYNCED; a STANDBY part, the demoted one too, then
takes over in AUTO mode while CLAIM_IN is released. A frame that arrives at the instant of the boundary, before the
boundary is taken, counts for the period that begins there and not for the one that ends (R102); that the instant is told
by a period clock of H or more is log entry 32's deduction. That a boundary passed in any link state leaves a HEARTBEAT waiting,
which is sent in UP only, is log entry 13's deduction between R56 and R99. -/
def Obligations.MissCounter : Prop :=
  ∀ s : State, StallStands s → s.link.periodClock ≠ none →
    let limit := s.csu.timing.missLimit
    let fresh (m : Nat) : Link :=
      { s.link with
        missCount := m, frameInPeriod := s.link.frameAtBoundary, frameAtBoundary := false
        periodClock := some 0, heartbeatWaiting := true }
    (s.link.frameInPeriod = true → 1 ≤ limit → ∃ t, exec .heartbeatPeriodBoundary s = .next t ∧
      t.unreported = ({ s with link := fresh 0 } : State).unreported) ∧
    (s.link.frameInPeriod = false → s.link.missCount + 1 < limit → ∃ t, exec .heartbeatPeriodBoundary s = .next t ∧
      t.unreported = ({ s with link := fresh (s.link.missCount + 1) } : State).unreported) ∧
    (s.link.frameInPeriod = false → s.link.missCount = limit → ∃ t, exec .heartbeatPeriodBoundary s = .next t ∧
      t.unreported = ({ s with link := fresh limit } : State).unreported) ∧
    (s.link.frameInPeriod = false → s.link.missCount + 1 = limit → s.link.view = .lost →
      ∃ t, exec .heartbeatPeriodBoundary s = .next t ∧
        t.unreported = ({ s with link := fresh limit } : State).unreported) ∧
    (s.link.frameInPeriod = false → s.link.missCount + 1 = limit → s.link.view ≠ .lost →
      ∃ t, exec .heartbeatPeriodBoundary s = .next t ∧
        t.link.view = .lost ∧ t.link.missCount = limit ∧ t.link.frameInPeriod = s.link.frameAtBoundary ∧
        t.link.frameAtBoundary = false ∧
        t.link.periodClock = some 0 ∧ t.link.heartbeatWaiting = true ∧
        t.link.state = (if s.link.state = .up then .train else s.link.state) ∧
        t.csu.pendingSet.getLsbD Notice.peerLost.bit = true ∧
        (s.link.state = .up → t.csu.pendingSet.getLsbD Notice.linkDown.bit = true ∧ t.disp.inFlight = []) ∧
        (s.rc.role ≠ .standby → s.rc.role ≠ .handoff → t.rc = s.rc) ∧
        (s.rc.role = .standby → s.csu.timing.takeoverAuto = false ∨ s.rc.claimIn = true → t.rc = s.rc) ∧
        (s.rc.role = .standby → s.csu.timing.takeoverAuto = true → s.rc.claimIn = false → s.apply.queue = [] →
          t.rc.role = .active ∧ t.rc.claimOut = true ∧
          t.rc.epoch = maxEpoch s.rc.epoch s.link.peer.epoch + 1) ∧
        (s.rc.role = .standby → s.csu.timing.takeoverAuto = true → s.rc.claimIn = false → s.apply.queue ≠ [] →
          t.rc.role = .takeover ∧ t.apply = s.apply) ∧
        (s.rc.role = .handoff → s.link.state = .up → RoleLaw s →
          t.csu.running = none ∧ t.csu.result = { code := 0x12, result := .linkLost, field := 0, done := true } ∧
          (s.rc.closing = false → t.rc = { s.rc with role := .active, handoff := none } ∧ t.apply = s.apply) ∧
          (s.rc.closing = true → t.apply.queue = [] ∧ t.rts.tags = [] ∧
            (s.csu.timing.takeoverAuto = false ∨ s.rc.claimIn = true →
              t.rc = { s.rc with role := .standby, closing := false, handoff := none, sync := .unsynced,
                                 claimOut := false, dual := .stopped }) ∧
            (s.csu.timing.takeoverAuto = true → s.rc.claimIn = false →
              t.rc.role = .active ∧ t.rc.closing = false ∧ t.rc.sync = .unsynced ∧
              t.rc.epoch = maxEpoch s.rc.epoch s.link.peer.epoch + 1)))) ∧
    (∀ (c : Instr) (n : Nat), s.link.periodClock = some n → 1000 * s.csu.timing.heartbeatMs ≤ n →
      s.link.state ≠ .up → checksFrames s.link = true → s.link.incoming = none → s.link.missCount ≤ limit →
      (∃ h b, c = .heartbeatReceived h b) ∨ (∃ a, c = .ackReceived a) ∨ (∃ q, c = .nakReceived q) →
      ∃ u t, exec c s = .next u ∧ exec .heartbeatPeriodBoundary u = .next t ∧ t.link.frameInPeriod = true ∧
        t.link.frameAtBoundary = false ∧
        t.link.missCount = if s.link.frameInPeriod then 0 else min limit (s.link.missCount + 1))

/-! ## The Dispatcher, the journals and the apply queue -/

/-- ITEM_START (R40, R50, R57 to R60, R65, R68): under the sending condition an armed control item starts first, in
the order SYNC_BEGIN, SYNC_DONE, HANDOVER; a selected record's tag enters the flight family, its window's search
pointer moves past it and the round-robin pointer names its window; a block or a record starts with the
lowest-numbered free readout slot, which reads its words, and not without one. The unsent head of the Journal Queue is
chosen while no control item is armed and no window of a higher priority has a DIRTY record. A record is chosen while
neither a window of a higher priority has a DIRTY record nor an unsent journal head of its own priority or a higher one
waits: that of the first window of its priority after the round-robin pointer, wrapping once, which has one, and in it the
first after the search pointer. -/
def Obligations.ItemStarted : Prop :=
  ∀ s : State,
    let sending : Prop :=
      s.link.state = .up ∧ s.link.view = .paired ∧ s.link.peer.role = .standby ∧
      (s.rc.role = .active ∨ s.rc.role = .handoff) ∧ s.disp.seqClosed = false ∧ s.disp.inFlight.length < 16
    let listed (i : Item) (r : Option (Fin 4)) : List InFlight :=
      s.disp.inFlight ++ [⟨s.link.nextSeq, i, none, false, r⟩]
    let timer : Option Nat := if s.disp.inFlight = [] then some 0 else s.disp.ackTimer
    let numbered : Link := { s.link with nextSeq := s.link.nextSeq + 1 }
    let becomes (t' : State) : Prop := ∃ t, exec .itemStart s = .next t ∧ t.unreported = t'.unreported
    let unarmed : Prop := s.disp.syncBeginArm = false ∧ s.disp.syncDoneArm = false ∧ s.disp.handoverArm = false
    let clean (v : RecordWindow) : Prop := ∀ x, x < v.count → (tagAt s.rts (v.tagBase + x)).state ≠ .dirty
    let head (e : JournalEntry) : Prop := ∃ before after, s.journals.queue = before ++ ⟨e, false⟩ :: after ∧
      ∀ y ∈ before, y.sent = true
    let turn (p : Fin 4) (k : Slot) : Nat := (k.val + 7 - (s.disp.roundRobin[p]).val) % 8
    (∀ e w, sending → unarmed → head e → journalAt s.windows e.slot = some w →
      (∀ (j : Slot) v, recordAt s.windows j = some v → w.priority < v.priority → clean v) →
      ((∃ r : Fin 4, s.disp.readouts[r] = none) ∨ ∃ k f d m, e = .word k f d m) →
      chooseItem s = some (.journal e)) ∧
    (∀ (k : Slot) w i, sending → unarmed → (∃ r : Fin 4, s.disp.readouts[r] = none) →
      (∀ e v, head e → journalAt s.windows e.slot = some v → v.priority < w.priority) →
      (∀ (j : Slot) v, recordAt s.windows j = some v →
        w.priority < v.priority ∨ (v.priority = w.priority ∧ turn w.priority j < turn w.priority k) → clean v) →
      recordAt s.windows k = some w → i < w.count → (tagAt s.rts (w.tagBase + i)).state = .dirty →
      s.rts.pointers[k] < w.count →
      (∀ x, x < w.count →
        (x + w.count - s.rts.pointers[k]) % w.count < (i + w.count - s.rts.pointers[k]) % w.count →
        (tagAt s.rts (w.tagBase + x)).state ≠ .dirty) →
      chooseItem s = some (.record k i)) ∧
    (sending → s.disp.syncBeginArm = true →
      becomes { s with
        link := numbered
        disp := { s.disp with
          syncBeginArm := false, inFlight := listed (.control .syncBegin) none, ackTimer := timer } }) ∧
    (sending → s.disp.syncBeginArm = false → s.disp.syncDoneArm = true →
      becomes { s with
        link := numbered
        pass := { s.pass with
          awaited := if s.pass.awaited = .armed then .started s.link.nextSeq else s.pass.awaited }
        disp := { s.disp with
          syncDoneArm := false, inFlight := listed (.control (.syncDone s.pass.gen)) none, ackTimer := timer } }) ∧
    (sending → s.disp.syncBeginArm = false → s.disp.syncDoneArm = false → s.disp.handoverArm = true →
      becomes { s with
        link := numbered
        disp := { s.disp with
          handoverArm := false, inFlight := listed (.control (.handover s.rc.epoch)) none, ackTimer := timer } }) ∧
    (∀ k f d m, chooseItem s = some (.journal (.word k f d m)) → JournalLaw s → ∃ t, exec .itemStart s = .next t ∧
      t.link = numbered ∧ JournalLaw t ∧
      t.journals.queue.map (·.entry) = s.journals.queue.map (·.entry) ∧
      t.disp = { s.disp with inFlight := listed (.journal (.word k f d m)) none, ackTimer := timer } ∧
      t.rts = s.rts ∧ t.pass = s.pass ∧ t.rc = s.rc ∧ t.apply = s.apply ∧ t.mem = s.mem) ∧
    (∀ k f l, chooseItem s = some (.journal (.block k f l)) → JournalLaw s → ∃ (t : State) (r : Fin 4),
      exec .itemStart s = .next t ∧ sending ∧
      s.disp.readouts[r] = none ∧ (∀ q : Fin 4, q < r → s.disp.readouts[q] ≠ none) ∧
      t.link = numbered ∧ JournalLaw t ∧
      t.journals.queue.map (·.entry) = s.journals.queue.map (·.entry) ∧ t.journals.states = s.journals.states ∧
      t.disp = { s.disp with
        readouts := s.disp.readouts.set r (some ⟨s.link.nextSeq, .block k f, true, [], 0⟩)
        inFlight := listed (.journal (.block k f l)) (some r), ackTimer := timer } ∧
      t.rts = s.rts ∧ t.pass = s.pass ∧ t.rc = s.rc ∧ t.apply = s.apply ∧ t.mem = s.mem) ∧
    ((∀ r : Fin 4, s.disp.readouts[r] ≠ none) →
      (∀ k f l, chooseItem s ≠ some (.journal (.block k f l))) ∧ ∀ k i, chooseItem s ≠ some (.record k i)) ∧
    (∀ k i, chooseItem s = some (.record k i) → TagForm s → ∃ (t : State) (w : RecordWindow) (r : Fin 4),
      exec .itemStart s = .next t ∧
      recordAt s.windows k = some w ∧ i < w.count ∧ (tagAt s.rts (w.tagBase + i)).state = .dirty ∧
      sending ∧ s.disp.syncBeginArm = false ∧ s.disp.syncDoneArm = false ∧ s.disp.handoverArm = false ∧
      (∀ p : Fin 4, w.priority ≤ p → journalCandidate s p = none) ∧
      (∀ j v, recordAt s.windows j = some v →
        w.priority < v.priority ∨ (v.priority = w.priority ∧ turn w.priority j < turn w.priority k) → clean v) ∧
      (s.rts.pointers[k] < w.count → ∀ x, x < w.count →
        (x + w.count - s.rts.pointers[k]) % w.count < (i + w.count - s.rts.pointers[k]) % w.count →
        (tagAt s.rts (w.tagBase + x)).state ≠ .dirty) ∧
      s.disp.readouts[r] = none ∧ (∀ q : Fin 4, q < r → s.disp.readouts[q] ≠ none) ∧
      t.unreported =
        ({ s with
           link := numbered
           rts :=
             { setTag (w.tagBase + i) { tagAt s.rts (w.tagBase + i) with state := .flight } s.rts with
               pointers := s.rts.pointers.set k ((i + 1) % w.count) }
           disp := { s.disp with
             roundRobin := s.disp.roundRobin.set w.priority k
             readouts := s.disp.readouts.set r (some ⟨s.link.nextSeq, .record k i, true, [], 0⟩)
             inFlight := listed (.record k i) (some r), ackTimer := timer } } : State).unreported) ∧
    (chooseItem s = none → ∃ t, exec .itemStart s = .next t ∧ t.unreported = s.unreported)

/-- READOUT_READ in a slot that the arbiter gives the readout class (R30, R31, R60 to R64): one word of the
earliest-selected slot still reading is read, classified and kept. A record ends as DISCARD at an uncorrectable
word, as TOMBSTONE at a zero K, as RECORD at its last word; the words of a RECORD frame stand in position order. -/
def Obligations.ReadoutWord : Prop :=
  (∀ (s : State) (x : InFlight) (r : Fin 4) (ro : Readout) (a : Addr),
    s.rc.bclkQuiet = none → nextClass s = some .readout → readingEntry s.disp = some x → x.readout = some r →
    s.disp.readouts[r] = some ro → readoutAddr s.windows ro = some a →
    let c := (classify (memRead s.mem a)).1
    let d := (classify (memRead s.mem a)).2
    let words := ro.words ++ [(d, c)]
    ∃ t, exec .readoutRead s = .next t ∧
      t.bpt.waitCount = 0 ∧ t.mem = s.mem ∧ t.rts = s.rts ∧ t.rc = s.rc ∧ t.link = s.link ∧ t.apply = s.apply ∧
      t.disp.corrected = (if c = .corrected then saturatingInc s.disp.corrected else s.disp.corrected) ∧
      (∀ k i w, ro.item = .record k i → recordAt s.windows k = some w →
        let form : Option RecordForm :=
          if c = .uncorrectable then some .discard
          else if ro.words = [] ∧ d = 0 then some .tombstone
          else if ro.words.length + 1 = w.size then some .record else none
        t.disp.readouts = s.disp.readouts.set r (some { ro with words := words, reading := form.isNone }) ∧
        t.disp.inFlight = s.disp.inFlight.map (fun y => if y.seq = x.seq then { y with form := form } else y) ∧
        (c = .uncorrectable →
          t.csu.discard = ⟨.record, k, i⟩ ∧ t.csu.pendingSet = s.csu.pendingSet ||| Notice.recordDiscarded.mask) ∧
        (c ≠ .uncorrectable → t.csu.discard = s.csu.discard ∧ t.csu.pendingSet = s.csu.pendingSet)) ∧
      (∀ k f, ro.item = .block k f →
        t.disp.readouts =
          s.disp.readouts.set r (some { ro with words := words, reading := decide (ro.words.length ≠ 3) }) ∧
        t.disp.inFlight = s.disp.inFlight ∧
        (c = .uncorrectable →
          t.csu.discard = ⟨.journalBlock, k, f⟩ ∧
          t.csu.pendingSet = s.csu.pendingSet ||| Notice.recordDiscarded.mask))) ∧
  (∀ (w : RecordWindow) (g : Nat → DWord × ReadClass), w.stateWord < w.size →
    (readOrder w).head? = some w.stateWord ∧ (readOrder w).Perm (List.range w.size) ∧
    recordWords w ((readOrder w).map g) = (List.range w.size).map fun p => (g p).1)

/-- COPY_START and BLOCK_INSERTION (R74, R75): a DESYNC window begins its copy at position 0 while items may be sent
and no block of it is queued; while fewer than 64 entries are queued, one block of the lowest COPYING window with
words left is queued and its position moves on by 4, with copy-last set at offset L − 4; otherwise nothing changes. -/
def Obligations.CopyBegins : Prop :=
  ∀ s : State,
    let mayGo : Prop :=
      s.link.state = .up ∧ s.link.view = .paired ∧ s.link.peer.role = .standby ∧
      (s.rc.role = .active ∨ s.rc.role = .handoff) ∧ s.disp.seqClosed = false
    (∀ k : Slot,
      let free : Prop := ∀ q ∈ s.journals.queue, ∀ f l, q.entry ≠ .block k f l
      (s.journals.states[k] = some .desync → mayGo → free → ∃ t, exec (.copyStart k) s = .next t ∧
        t.unreported =
          ({ s with
             journals := { s.journals with states := s.journals.states.set k (some (.copying 0)) } } :
            State).unreported) ∧
      (s.journals.states[k] ≠ some .desync ∨ ¬ mayGo ∨ ¬ free → ∃ t, exec (.copyStart k) s = .next t ∧
        t.unreported = s.unreported)) ∧
    (∀ (k : Slot) (p : Nat) (w : JournalWindow), s.journals.queue.length < 64 →
      s.journals.states[k] = some (.copying p) → journalAt s.windows k = some w → p < w.length →
      (∀ j : Slot, j < k → ∀ q v, s.journals.states[j] = some (.copying q) → journalAt s.windows j = some v →
        v.length ≤ q) →
      ∃ t, exec .blockInsertion s = .next t ∧
        t.unreported =
          ({ s with
             journals :=
               { queue := s.journals.queue ++ [⟨.block k p (decide (p + 4 = w.length)), false⟩]
                 states := s.journals.states.set k (some (.copying (p + 4))) } } : State).unreported) ∧
    (64 ≤ s.journals.queue.length ∨
        (∀ (k : Slot) p w, s.journals.states[k] = some (.copying p) → journalAt s.windows k = some w →
          w.length ≤ p) →
      ∃ t, exec .blockInsertion s = .next t ∧ t.unreported = s.unreported)

/-- APPLY_WORD_WRITE of the entries that write memory (R33, R104 to R106, R108 to R111): a RECORD writes its S words
with K last, a TOMBSTONE or DISCARD writes a zero K, a full JOURNAL_WORD its word and a JOURNAL_BLOCK four words in
ascending order, each with generated check bits; the last write completes the entry: A is one above its sequence
number and an ACK is waiting in UP. A TAKEOVER part with entries behind it stays in TAKEOVER, its queue one shorter, and is
promoted with the last one (R116, R144). A read held against the entry is released in that step, unless an entry behind it
covers its word too (R29). The control entries and the words without bytes behind the completed entry are applied in the
same step, in STANDBY and in TAKEOVER, up to the next memory entry (R104, R107, R112, R113). That the no-active rule is judged
once, with what the step leaves, is log entry 11's reading, and that no unit wins it over a peer in INIT is log entry 29's
choice. -/
def Obligations.ApplyWrites : Prop :=
  ∀ (s : State) (f : SeqFrame) (rest : List SeqFrame) (a : Addr) (d : DWord) (last : Bool),
    s.rc.role = .standby ∨ s.rc.role = .takeover → s.rc.bclkQuiet = none → peerSilent s = false →
    (∀ x, s.bpt.held ≠ .port x) → s.apply.queue = f :: rest →
    let n := s.apply.written
    let later (x : Addr) : Bool := rest.any fun g => coversAddr s.windows x.toNat g.body
    let released (t : State) : Prop := ∀ x, s.bpt.held = .read x →
      (covered s x = true → later x = false → t.bpt.held = .port ⟨false, x, 0, 0, 0⟩) ∧
      (later x = true → t.bpt.held = .read x)
    (∃ k i ws w, f.body = .record k i ws ∧ recordAt s.windows k = some w ∧ w.stateWord < w.size ∧ n < w.size ∧
        let p := if n + 1 = w.size then w.stateWord else if n < w.stateWord then n else n + 1
        a = BitVec.ofNat 19 (w.base + i.toNat * w.size + p) ∧ d = ws.getD p 0 ∧ last = decide (n + 1 = w.size)) ∨
      (∃ k i w, (f.body = .tombstone k i ∨ f.body = .discard k i) ∧ recordAt s.windows k = some w ∧ n = 0 ∧
        a = BitVec.ofNat 19 (w.base + i.toNat * w.size + w.stateWord) ∧ d = 0 ∧ last = true) ∨
      (∃ k o w, f.body = .journalWord k o 0xFF d ∧ journalAt s.windows k = some w ∧ n = 0 ∧
        a = BitVec.ofNat 19 (w.base + o.toNat) ∧ last = true) ∨
      (∃ k o l w0 w1 w2 w3 w, f.body = .journalBlock k o l w0 w1 w2 w3 ∧ journalAt s.windows k = some w ∧ n < 4 ∧
        a = BitVec.ofNat 19 (w.base + (o.toNat + n)) ∧ d = [w0, w1, w2, w3].getD n 0 ∧ last = decide (n = 3)) →
    (last = false → ∃ t, exec .applyWordWrite s = .next t ∧
      t.unreported =
        ({ s with
           mem := memWrite s.mem a ⟨d, checkBits d⟩
           apply := { s.apply with written := n + 1 } } : State).unreported) ∧
    (last = true → s.rc.role = .standby →
      (∀ g l, rest = g :: l → immediate g.body = false) →
      ∃ t, exec .applyWordWrite s = .next t ∧
        t.mem = memWrite s.mem a ⟨d, checkBits d⟩ ∧
        t.apply.queue = rest ∧ t.apply.written = 0 ∧ t.apply.merged = none ∧ t.apply.applied = f.seq + 1 ∧
        t.apply.lastAck = s.apply.lastAck ∧
        t.link.ackWaiting =
          (s.link.ackWaiting || decide (s.link.state = .up ∧ f.seq + 1 ≠ s.apply.lastAck)) ∧
        t.rc = s.rc ∧ t.rts = s.rts ∧ t.disp = s.disp ∧ t.journals = s.journals ∧ t.pass = s.pass ∧ released t ∧
        (∀ k o m x, f.body = .journalWord k o m x →
          t.apply.counts = s.apply.counts.set k (s.apply.counts[k] + 1)) ∧
        ((∀ k o m x, f.body ≠ .journalWord k o m x) → t.apply.counts = s.apply.counts) ∧
        (∀ k i, f.body = .discard k i → t.csu.discard = ⟨.record, k, i.toNat⟩ ∧
          t.csu.pendingSet = s.csu.pendingSet ||| Notice.recordDiscarded.mask) ∧
        (∀ k o w0 w1 w2 w3, f.body = .journalBlock k o true w0 w1 w2 w3 →
          t.csu.pendingSet = s.csu.pendingSet ||| Notice.journalRecopied.mask)) ∧
    (last = true → s.rc.role = .takeover → rest = [] →
      ∃ t, exec .applyWordWrite s = .next t ∧ t.mem = memWrite s.mem a ⟨d, checkBits d⟩ ∧ released t ∧
        t.rc.role = .active ∧ t.rc.epoch = maxEpoch s.rc.epoch s.link.peer.epoch + 1) ∧
    (last = true → s.rc.role = .takeover → rest ≠ [] → (∀ g l, rest = g :: l → immediate g.body = false) →
      ∃ t, exec .applyWordWrite s = .next t ∧ t.mem = memWrite s.mem a ⟨d, checkBits d⟩ ∧ released t ∧
        t.apply.queue = rest ∧ t.apply.written = 0 ∧ t.apply.merged = none ∧ t.apply.applied = f.seq + 1 ∧
        t.rc = s.rc) ∧
    (last = true → s.rc.closing = false →
      HeadLeaves .applyWordWrite s
        (headDone s (entryApplied { s with mem := memWrite s.mem a ⟨d, checkBits d⟩ } f) rest))

/-- APPLY_MERGE_READ (R34, R62, R107): a JOURNAL_WORD with some bytes set and not all reads its word first, and the
write that follows carries the frame's bytes over the word read; the journal applied count gains 1, and a merge over
an uncorrectable word is reported. The control entries and the words without bytes behind it are applied in the step of
the write, in STANDBY and in TAKEOVER (R104, R112, R113; the no-active rule: log entries 11 and 29). -/
def Obligations.MergeThenWrite : Prop :=
  ∀ (s : State) (q : SeqNo) (k : Slot) (o : BitVec 16) (m : Byte) (d : DWord) (rest : List SeqFrame)
    (w : JournalWindow),
    s.rc.role = .standby ∨ s.rc.role = .takeover → s.rc.bclkQuiet = none → (∀ x, s.bpt.held ≠ .port x) →
    s.apply.queue = ⟨q, .journalWord k o m d⟩ :: rest → m ≠ 0 → m ≠ 0xFF → journalAt s.windows k = some w →
    let a : Addr := BitVec.ofNat 19 (w.base + o.toNat)
    let c := (classify (memRead s.mem a)).1
    let old := (classify (memRead s.mem a)).2
    (s.apply.merged = none → ∃ t, exec .applyMergeRead s = .next t ∧
      t.unreported =
        ({ s with
           apply := { s.apply with
             merged := some ((d &&& byteMask m) ||| (old &&& ~~~ byteMask m), c) }
           disp := { s.disp with
             corrected := if c = .corrected then saturatingInc s.disp.corrected else s.disp.corrected } } :
          State).unreported) ∧
    (∀ x c', s.apply.merged = some (x, c') → s.apply.written = 0 → s.rc.role = .standby → peerSilent s = false →
      (∀ g l, rest = g :: l → immediate g.body = false) →
      ∃ t, exec .applyWordWrite s = .next t ∧
        t.mem = memWrite s.mem a ⟨x, checkBits x⟩ ∧ t.apply.applied = q + 1 ∧ t.apply.queue = rest ∧
        t.apply.counts = s.apply.counts.set k (s.apply.counts[k] + 1) ∧ t.rc = s.rc ∧
        (c' = .uncorrectable → t.csu.discard = ⟨.journalWord, k, o.toNat⟩ ∧
          t.csu.pendingSet = s.csu.pendingSet ||| Notice.recordDiscarded.mask) ∧
        (c' ≠ .uncorrectable → t.csu.discard = s.csu.discard ∧ t.csu.pendingSet = s.csu.pendingSet)) ∧
    (∀ x c', s.apply.merged = some (x, c') → s.apply.written = 0 → peerSilent s = false → s.rc.closing = false →
      HeadLeaves .applyWordWrite s
        (headDone s
          (entryApplied { s with mem := memWrite s.mem a ⟨x, checkBits x⟩ } ⟨q, .journalWord k o m d⟩) rest))

/-- Control entries accepted at an empty apply queue of a STANDBY part in UP (R95, R104, R112, R113, R137, R144), whatever
the peer's role: a change of the sync state beside a peer that claims nothing brings the no-active rule (R142). SYNC_BEGIN
makes the sync state SYNCING; SYNC_DONE sets G and IN_SYNC and raises SYNC_DONE; HANDOVER moves to TAKEOVER and, the
queue being empty, on to ACTIVE with E above the carried one. Each completes in the step that takes it, and so does a
JOURNAL_WORD whose byte mask is empty: it writes nothing and its slot's journal applied count gains 1 (R107, R111). That no
unit wins the no-active rule over a peer in INIT is log entry 29's choice. -/
def Obligations.ControlEntriesApplied : Prop :=
  ∀ (f : SeqFrame) (s : State), s.rc.role = .standby → s.link.state = .up → s.link.view = .paired →
    s.apply.queue = [] → f.seq = s.link.expected → s.link.incoming = none →
    (immediate f.body = true → namesKnown s.windows f.body = true → ReadLaw s → s.rc.closing = false →
      HeadLeaves (.sequencedFrameReceived f) s
        (headDone s
          (entryApplied
            { s with link := { s.frameCounted with
                expected := s.link.expected + 1, nakPending := false, nakWaiting := false } } f) [])) ∧
    ((s.link.peer.role = .active ∨ s.link.peer.role = .handoff ∨ s.link.peer.role = .takeover) →
    let taken : Link :=
      { s.frameCounted with
        expected := s.link.expected + 1, nakPending := false, nakWaiting := false
        ackWaiting := s.link.ackWaiting || decide (f.seq + 1 ≠ s.apply.lastAck) }
    let done : ApplyEngine := { s.apply with written := 0, merged := none, applied := f.seq + 1 }
    (∀ k o d w, f.body = .journalWord k o 0 d → journalAt s.windows k = some w → o.toNat < w.length → ReadLaw s →
      ∃ t, exec (.sequencedFrameReceived f) s = .next t ∧
        t.unreported =
          ({ s with
             link := taken
             apply := { done with counts := s.apply.counts.set k (s.apply.counts[k] + 1) } } : State).unreported) ∧
    (f.body = .syncBegin → ∃ t, exec (.sequencedFrameReceived f) s = .next t ∧
      t.unreported =
        ({ s with link := taken, apply := done, rc := { s.rc with sync := .syncing } } : State).unreported) ∧
    (∀ g, f.body = .syncDone g → ∃ t, exec (.sequencedFrameReceived f) s = .next t ∧
      t.unreported =
        ({ s with
           link := taken, apply := done, pass := { s.pass with gen := g }, rc := { s.rc with sync := .inSync }
           csu := { s.csu with pendingSet := s.csu.pendingSet ||| Notice.syncDone.mask } } : State).unreported) ∧
    (∀ e, f.body = .handover e → ∃ t, exec (.sequencedFrameReceived f) s = .next t ∧
      t.rc.role = .active ∧ t.rc.claimOut = true ∧ t.rc.epoch = maxEpoch s.rc.epoch e + 1 ∧
      t.link.peer = { s.link.peer with epoch := e } ∧ t.apply = done ∧
      t.csu.pendingSet.getLsbD Notice.roleChanged.bit = true))

/-! ## The passes -/

/-- SYNC_VISIT, SYNC_COMPLETION, REFRESH_VISIT and REFRESH_PASS_END (R44, R45, R121 to R124, R126, R130), and the
pacing offsets of R123: visit i of n over T ticks is due at offset(i), offset(0) is 0, offset(n) is T, and the first
T − q·n intervals are q + 1 ticks long and the others q. -/
def Obligations.PassSteps : Prop :=
  (∀ s : State,
    let i := s.pass.syncPos
    let total := totalRecords s.windows
    let visited : Rts := setTag i (tagAfter .syncVisit (tagAt s.rts i)) s.rts
    (s.pass.phase = .passing → i < total → ∀ b, s.csu.timing.syncMode = .demand b →
      (dirtyTotal s.rts + flightTotal s.rts < b → ∃ t, exec .syncVisit s = .next t ∧
        t.unreported = ({ s with rts := visited, pass := { s.pass with syncPos := i + 1 } } : State).unreported) ∧
      (b ≤ dirtyTotal s.rts + flightTotal s.rts → ∃ t, exec .syncVisit s = .next t ∧
        t.unreported = s.unreported)) ∧
    (s.pass.phase = .passing → i < total → ∀ d, s.csu.timing.syncMode = .paced d →
      visitOffset total (1000000 * d) i ≤ s.pass.syncClock → ∃ t, exec .syncVisit s = .next t ∧
        t.unreported = ({ s with rts := visited, pass := { s.pass with syncPos := i + 1 } } : State).unreported) ∧
    (s.pass.phase = .passing → s.rts.outstanding = 0 →
      (∀ k : Slot, s.journals.states[k] ≠ some .desync ∧ isCopying s.journals.states[k] = false) →
      ∃ t, exec .syncCompletion s = .next t ∧
        t.unreported =
          ({ s with
             pass := { s.pass with gen := s.pass.gen + 1, phase := .completing, awaited := .armed }
             disp := { s.disp with syncDoneArm := true } } : State).unreported) ∧
    (s.pass.phase ≠ .passing ∨ s.rts.outstanding ≠ 0 ∨
        (∃ k : Slot, s.journals.states[k] = some .desync ∨ isCopying s.journals.states[k] = true) →
      ∃ t, exec .syncCompletion s = .next t ∧ t.unreported = s.unreported) ∧
    (s.pass.refreshing = true → s.pass.refreshPos < refreshTotal s.windows →
      visitOffset (refreshTotal s.windows) (1000 * s.csu.timing.refreshMs) s.pass.refreshPos ≤ s.pass.refreshClock →
      ∃ (t : State) (k : Slot) (w : RecordWindow) (j : Nat), exec .refreshVisit s = .next t ∧
        recordAt s.windows k = some w ∧ w.refresh = true ∧ j < w.count ∧
        s.pass.refreshPos = sumSlots Window.refreshRecords s.windows (allSlots.filter fun x => decide (x < k)) + j ∧
        t.unreported =
          ({ s with
             rts := setTag (w.tagBase + j) (tagAfter .refreshVisit (tagAt s.rts (w.tagBase + j))) s.rts
             pass := { s.pass with refreshPos := s.pass.refreshPos + 1 } } : State).unreported) ∧
    (s.pass.refreshing = true → refreshTotal s.windows ≤ s.pass.refreshPos →
      ∃ t, exec .refreshPassEnd s = .next t ∧
        t.unreported =
          ({ s with pass := { s.pass with refreshPos := 0, refreshClock := 0 } } : State).unreported)) ∧
  (∀ n t : Nat, 0 < n → visitOffset n t 0 = 0 ∧ visitOffset n t n = t ∧
    ∀ i, i < n → visitOffset n t (i + 1) = visitOffset n t i + t / n + (if i < t % n then 1 else 0))

/-! ## The Role Controller's events and the monitors -/

/-- CLAIM_IN_CHANGE, DUAL_CLAIM_TIMER_EXPIRY and HANDOFF_TIMER_EXPIRY (R134, R138, R141, R149, R151, R152): the dual
claim timer runs while both claims hold and raises DUAL_CLAIM at its expiry, as a HELLO from a claiming peer does in
HELLO and in UP, whether or not it passes its check, whereupon unit A stands and unit B demotes, UNSYNCED, with the
greater E and PEER_ACTIVE; a STANDBY part with a LOST peer takes over when CLAIM_IN is released, and so does a unit B
that a HELLO has demoted in HELLO, its role posted although it is the one it had (R138, R166); a handoff that expires
before closing returns to ACTIVE with TIMEOUT. A journal write that is stalled at a demotion is suppressed and counted
(R27). That a HELLO's check and record come before its claim, so that the record ends a handoff first (R148, R150), is
log entry 11's choice, and that the write is suppressed also where that record has emptied the queue first is log entry
23's. That a HELLO whose V has a bit at a position S or above fails the check is log entry 25's, and that a HELLO
being sent gives way at once at the failure of the check is log entry 28's. -/
def Obligations.TwoClaims : Prop :=
  ∀ s : State, RoleLaw s → StallStands s →
    let withheld (t : State) : Prop := t.mem = s.mem ∧
      (∀ a n, s.bpt.held = .stall a n →
        t.bpt.held = .none ∧ t.bpt.suppressed = saturatingInc s.bpt.suppressed) ∧
      ((∀ a n, s.bpt.held ≠ .stall a n) → t.bpt.suppressed = s.bpt.suppressed)
    (∀ v, v = s.rc.claimIn → ∃ t, exec (.claimInChange v) s = .next t ∧ t.unreported = s.unreported) ∧
    (∀ v, v ≠ s.rc.claimIn → ¬ (s.rc.role = .standby ∧ s.link.view = .lost ∧ s.csu.timing.takeoverAuto = true ∧
        v = false) →
      ∃ t, exec (.claimInChange v) s = .next t ∧
        t.unreported =
          ({ s with
             rc := { s.rc with
               claimIn := v
               dual := if (s.rc.role = .active ∨ s.rc.role = .handoff) ∧ v = true then .running 0 else .stopped } } :
            State).unreported) ∧
    (s.rc.claimIn = true → s.rc.role = .standby → s.link.view = .lost → s.csu.timing.takeoverAuto = true →
      s.apply.queue = [] →
      ∃ t, exec (.claimInChange false) s = .next t ∧ t.rc.role = .active ∧ t.rc.claimOut = true ∧
        t.rc.epoch = maxEpoch s.rc.epoch s.link.peer.epoch + 1) ∧
    (∀ n, s.rc.dual = .running n → s.rc.unit = .a → ∃ t, exec .dualClaimTimerExpiry s = .next t ∧
      t.unreported =
        ({ s with
           rc := { s.rc with dual := .expired }
           csu := { s.csu with pendingSet := s.csu.pendingSet ||| Notice.dualClaim.mask } } : State).unreported) ∧
    (∀ n, s.rc.dual = .running n → s.rc.unit = .b →
      (s.link.view = .paired →
        s.link.peer.role = .active ∨ s.link.peer.role = .handoff ∨ s.link.peer.role = .takeover) →
      ∃ t, exec .dualClaimTimerExpiry s = .next t ∧
        t.rc = { s.rc with
          role := .standby, closing := false, handoff := none, sync := .unsynced, claimOut := false, dual := .stopped
          epoch := maxEpoch s.rc.epoch s.link.peer.epoch } ∧
        t.csu.pendingSet.getLsbD Notice.dualClaim.bit = true ∧ withheld t ∧
        t.rts = { tags := [], pointers := Vector.replicate 8 0, outstanding := 0 } ∧ t.disp.inFlight = [] ∧
        t.journals.queue = [] ∧ t.apply.queue = [] ∧ t.pass.phase = .none ∧ t.pass.refreshing = false ∧
        (s.csu.running = some .switchover →
          t.csu.result = { code := 0x12, result := .peerActive, field := 0, done := true })) ∧
    (∀ h : HelloFrame, claims h.role = true → claims s.rc.role = true → s.link.incoming = none →
      let entered : Link := { s.frameCounted with peer := ⟨h.role, h.sync, h.epoch, h.gen⟩ }
      let checked : Link := { entered with
        helloPassed := true, helloSeenIn := s.link.helloSeenIn || h.seen
        seen := s.link.seen || decide (s.apply.queue = []) }
      let refused : Link := { s.frameCounted with
        state := .incompatible, helloWaiting := false, sending := none }
      let raised : BitVec 16 := s.csu.pendingSet ||| Notice.dualClaim.mask
      let demoted (e : Epoch) : RoleController := { s.rc with
        role := .standby, closing := false, handoff := none, sync := .unsynced, claimOut := false, dual := .stopped
        epoch := maxEpoch s.rc.epoch e }
      let matched : Prop := h.geometry = tableGeometry s.windows ∧ h.unit ≠ s.rc.unit
      let moves : Prop := s.link.helloSeenOut = true ∧ (s.link.helloSeenIn || h.seen) = true
      let silent : Prop := s.link.view = .lost ∧ s.csu.timing.takeoverAuto = true ∧ s.rc.claimIn = false
      let becomes (t' : State) : Prop := ∃ t, exec (.helloReceived h) s = .next t ∧ t.unreported = t'.unreported
      let yields (l : Link) (e : Epoch) (r : ResultCode) : Prop := ∃ t, exec (.helloReceived h) s = .next t ∧
        t.link = l ∧ t.rc = demoted e ∧ t.csu.pendingSet.getLsbD Notice.dualClaim.bit = true ∧ withheld t ∧
        t.rts = { tags := [], pointers := Vector.replicate 8 0, outstanding := 0 } ∧ t.disp.inFlight = [] ∧
        t.journals.queue = [] ∧ t.apply.queue = [] ∧ t.pass.phase = .none ∧ t.pass.refreshing = false ∧
        (s.rc.role = .handoff → t.csu.running = none ∧
          t.csu.result = { code := 0x12, result := r, field := 0, done := true })
      (s.link.state = .hello → ¬ matched →
        (s.rc.unit = .a →
          becomes { s with link := refused, csu := { s.csu with pendingSet := raised ||| Notice.incompatible.mask } }) ∧
        (s.rc.unit = .b → ¬ silent → s.link.view ≠ .paired → yields refused s.link.peer.epoch .peerActive)) ∧
      (s.link.state = .hello → matched → ¬ moves → s.link.view ≠ .paired →
        (s.rc.unit = .a → becomes { s with link := checked, csu := { s.csu with pendingSet := raised } }) ∧
        (s.rc.unit = .b → ¬ silent → yields { checked with seen := true } h.epoch .peerActive) ∧
        (s.rc.unit = .b → silent → s.rc.role = .active → s.bpt.waitCount < 32 →
          ∃ t, exec (.helloReceived h) s = .next t ∧ t.rc.role = .active ∧ t.rc.claimOut = true ∧
            t.rc.epoch = maxEpoch s.rc.epoch h.epoch + 1 ∧
            t.csu.pendingSet.getLsbD Notice.roleChanged.bit = true ∧
            pendingValue 0 t.csu.postQueue = some (statusWord t 0))) ∧
      (s.link.state = .hello → matched → moves →
        let up (x : Link) : Link := { x with
          state := .up, nextSeq := 0, expected := 0, nakPending := false, ackWaiting := false, nakWaiting := false
          view := .paired, helloWaiting := false }
        (s.rc.unit = .a → becomes { s with
          link := up checked, apply := { s.apply with applied := 0, lastAck := 0 }
          disp := { s.disp with seqClosed := false }
          csu := { s.csu with pendingSet := raised ||| Notice.linkUp.mask } }) ∧
        (s.rc.unit = .b → yields (up { checked with seen := true }) h.epoch .peerActive)) ∧
      (s.link.state = .up → s.link.view = .paired → s.rc.role = .active →
        (s.rc.unit = .a → s.link.peer.role ≠ .standby →
          becomes { s with link := entered, csu := { s.csu with pendingSet := raised } }) ∧
        (s.rc.unit = .a → s.link.peer.role = .standby →
          ∃ t, exec (.helloReceived h) s = .next t ∧ t.link = entered ∧ t.rc = s.rc ∧
            t.csu.pendingSet.getLsbD Notice.dualClaim.bit = true ∧ t.disp.inFlight = [] ∧ t.journals.queue = [] ∧
            t.disp.seqClosed = (s.disp.seqClosed || !s.disp.inFlight.isEmpty) ∧
            t.pass.phase = .none ∧ t.pass.refreshing = false) ∧
        (s.rc.unit = .b → yields entered h.epoch .peerActive)) ∧
      (s.link.state = .up → s.link.view = .paired → s.rc.role = .handoff → s.rc.closing = false →
        s.link.peer.role = .standby →
        (s.rc.unit = .a → ∃ t, exec (.helloReceived h) s = .next t ∧ t.link = entered ∧
          t.rc = { s.rc with role := .active, handoff := none } ∧
          t.csu.pendingSet.getLsbD Notice.dualClaim.bit = true ∧ t.csu.running = none ∧
          t.csu.result = { code := 0x12, result := .notPaired, field := 0, done := true }) ∧
        (s.rc.unit = .b → yields entered h.epoch .notPaired)) ∧
      (s.link.state = .up → s.link.view = .paired → s.rc.role = .handoff → s.rc.closing = true →
        (h.role = .active → ∃ t, exec (.helloReceived h) s = .next t ∧ t.link = entered ∧
          t.rc = { demoted h.epoch with sync := .inSync, epoch := h.epoch } ∧
          t.csu.pendingSet.getLsbD Notice.dualClaim.bit = s.csu.pendingSet.getLsbD Notice.dualClaim.bit ∧
          t.csu.running = none ∧ t.csu.result = { code := 0x12, result := .ok, field := 0, done := true }) ∧
        (h.role = .handoff → s.rc.unit = .b → yields entered h.epoch .peerActive) ∧
        (h.role = .handoff → s.rc.unit = .a → ∃ t, exec (.helloReceived h) s = .next t ∧ t.link = entered ∧
          t.rc = s.rc ∧ t.csu.pendingSet.getLsbD Notice.dualClaim.bit = true ∧ t.csu.running = s.csu.running ∧
          t.csu.result = s.csu.result))) ∧
    (s.rc.role = .handoff → s.rc.closing = false → s.rc.handoff ≠ none → ∃ t, exec .handoffTimerExpiry s = .next t ∧
      t.unreported =
        ({ s with
           rc := { s.rc with role := .active, handoff := none }
           csu := { s.csu with
             running := none
             result := { code := 0x12, result := .timeout, field := 0, done := true }
             pendingSet := s.csu.pendingSet ||| Notice.roleChanged.mask ||| Notice.commandDone.mask } } :
          State).unreported) ∧
    (s.rc.role ≠ .handoff ∨ s.rc.closing = true ∨ s.rc.handoff = none → ∃ t, exec .handoffTimerExpiry s = .next t ∧
      t.unreported = s.unreported)

/-- LIVENESS_EXPIRY, BUS_CLOCK_LOST and BUS_CLOCK_RETURN (R32, R151, R154, R156, R157): the notice of the monitor is
raised; in RELEASE mode, and whenever a watched bus clock is lost, a part that is STANDBY, TAKEOVER, ACTIVE or HANDOFF
enters RELEASED, a running SWITCHOVER ending with ABORTED. A clock that stops while the monitor does not watch, or has
found it LOST already, only stops (R32), and one that returns lets the access that waits for its memory cycle through;
the monitor is PRESENT again where it was LOST. At entry to RELEASED a journal write that is stalled is forwarded
uncaptured (R27) and a held read is released, to return memory as it stands (R29); each waits for its memory cycle while
BCLK does not run. That BCLK stops with the command of its loss is log entry 18's choice. -/
def Obligations.HostMonitors : Prop :=
  ∀ s : State, RoleLaw s → StallStands s → ReadLaw s →
    let settled (stopped : Prop) (t : State) : Prop :=
      t.bpt.suppressed = s.bpt.suppressed ∧ ((∀ a n, s.bpt.held ≠ .stall a n) → t.mem = s.mem) ∧
      (∀ x, s.bpt.held = .read x → t.bpt.held = .port ⟨false, x, 0, 0, 0⟩) ∧
      ∀ a n, s.bpt.held = .stall a n →
        (stopped → t.bpt.held = .port a ∧ t.mem = s.mem) ∧
        (¬ stopped → s.bpt.waitCount < 32 → t.bpt.held = .none ∧ t.mem = memDrive s.mem a)
    let released (t : State) : Prop :=
      t.rc.role = .released ∧ t.rc.closing = false ∧ t.rc.sync = .unsynced ∧ t.rc.claimOut = false ∧
      t.rc.dual = .stopped ∧ t.rc.handoff = none ∧ t.rc.epoch = s.rc.epoch ∧
      t.rts = { tags := [], pointers := Vector.replicate 8 0, outstanding := 0 } ∧ t.disp.inFlight = [] ∧
      t.journals.queue = [] ∧ t.apply.queue = [] ∧ t.pass.phase = .none ∧ t.pass.refreshing = false ∧
      t.link.state = s.link.state ∧
      (s.rc.role = .handoff → t.csu.result = { code := 0x12, result := .aborted, field := 0, done := true } ∧
        t.csu.running = none)
    let holds : Prop := s.rc.role = .standby ∨ s.rc.role = .takeover ∨ s.rc.role = .active ∨ s.rc.role = .handoff
    (s.rc.liveness ≠ none → s.csu.timing.livenessRelease = true → holds →
      ∃ t, exec .livenessExpiry s = .next t ∧ released t ∧ settled (s.rc.bclkQuiet ≠ none) t ∧ t.rc.liveness = none ∧
        t.csu.pendingSet.getLsbD Notice.hostSilent.bit = true) ∧
    (s.rc.liveness ≠ none → s.csu.timing.livenessRelease = false ∨ ¬ holds →
      ∃ t, exec .livenessExpiry s = .next t ∧
        t.unreported =
          ({ s with
             rc := { s.rc with liveness := none }
             csu := { s.csu with pendingSet := s.csu.pendingSet ||| Notice.hostSilent.mask } } :
            State).unreported) ∧
    (s.rc.busClock = .present → holds →
      ∃ t, exec .busClockLost s = .next t ∧ released t ∧ settled True t ∧ t.rc.busClock = .lost ∧
        t.rc.bclkQuiet = some (max 100 (s.rc.bclkQuiet.getD 0)) ∧
        t.csu.pendingSet.getLsbD Notice.busClockLost.bit = true) ∧
    (s.rc.busClock = .present → ¬ holds →
      ∃ t, exec .busClockLost s = .next t ∧
        t.unreported =
          ({ s with
             rc := { s.rc with busClock := .lost, bclkQuiet := some (max 100 (s.rc.bclkQuiet.getD 0)) }
             csu := { s.csu with pendingSet := s.csu.pendingSet ||| Notice.busClockLost.mask } } :
            State).unreported) ∧
    (s.rc.busClock ≠ .present →
      ∃ t, exec .busClockLost s = .next t ∧
        t.unreported =
          ({ s with rc := { s.rc with bclkQuiet := some (max 100 (s.rc.bclkQuiet.getD 0)) } } : State).unreported) ∧
    (let clocked : RoleController := { s.rc with
       bclkQuiet := none, busClock := if s.rc.busClock = .lost then .present else s.rc.busClock }
     ((∀ a, s.bpt.held ≠ .port a) →
      ∃ t, exec .busClockReturn s = .next t ∧ t.unreported = ({ s with rc := clocked } : State).unreported) ∧
     (∀ a, s.bpt.held = .port a → s.bpt.waitCount < 32 →
      ∃ t, exec .busClockReturn s = .next t ∧
        t.unreported =
          (if a.write then
            { s with rc := clocked, bpt := { s.bpt with held := .none }, mem := memDrive s.mem a }
           else
            { s with
              rc := clocked, bpt := { s.bpt with held := .none, readData := memRead s.mem a.addr } }).unreported))

/-! ## What the part reports -/

/-- POSTING_TICK and STATUS_POSTING_WRITE (R30 to R33, R166, R167): at a tick every count word whose value
differs from the value last made pending becomes pending; a posting write stores the front word of the queue with
generated check bits, and after a DONE value of word 2 the held result follows; without BCLK nothing is written. -/
def Obligations.Postings : Prop :=
  (∀ s : State, s.rc.bclkQuiet ≠ none → ∃ t, exec .statusPostingWrite s = .next t ∧ t.unreported = s.unreported) ∧
  (∀ s : State, PostedLaw s → ∃ t, exec .postingTick s = .next t ∧
    t.csu.postClock = 0 ∧ t.mem = s.mem ∧ t.rc = s.rc ∧ t.disp = s.disp ∧ t.rts = s.rts ∧ t.link = s.link ∧
    (∀ w ∈ [4, 5, 8, 9, 10, 11, 12, 13, 14, 15, 16, 17, 18],
      lastCount w t.csu = statusWord s w ∧
      pendingValue w t.csu.postQueue =
        if statusWord s w = lastCount w s.csu then pendingValue w s.csu.postQueue else some (statusWord s w)) ∧
    (∀ w ∈ [0, 1, 2, 3, 6, 7], pendingValue w t.csu.postQueue = pendingValue w s.csu.postQueue)) ∧
  (∀ (s : State) (p : Posting) (rest : List Posting), s.csu.postQueue = p :: rest → s.rc.bclkQuiet = none →
    nextClass s = some .status → PostedLaw s → RoomLaw s → ∃ t, exec .statusPostingWrite s = .next t ∧
      t.mem = memWrite s.mem (BitVec.ofNat 19 (524160 + p.word)) ⟨p.value, checkBits p.value⟩ ∧
      t.bpt.waitCount = 0 ∧ t.rc = s.rc ∧ t.disp = s.disp ∧ t.rts = s.rts ∧ t.link = s.link ∧
      (p.word ≠ 2 ∨ p.value.getLsbD 63 = false ∨ s.csu.resultHold = none →
        t.csu.postQueue = rest ∧ t.csu.resultHold = s.csu.resultHold) ∧
      (∀ v, p.word = 2 → p.value.getLsbD 63 = true → s.csu.resultHold = some v →
        pendingValue 2 t.csu.postQueue = some v ∧ t.csu.resultHold = none ∧
        ∀ w, w ≠ 2 → pendingValue w t.csu.postQueue = pendingValue w rest))

/-- Every command, from a state whose waiting count is below 32 (R138, R165 to R167, R171): a state word whose value
changes is pending with its new value, word 0 is pending where a change of role has raised ROLE_CHANGED, a new result
word is pending or held, and INT_N is low exactly while a kind is pending and enabled. The words are laid out as R177 and
R178 say, with the codes of R174. -/
def Obligations.StateWordsPosted : Prop :=
  (∀ s : State,
    (statusWord s 0).toNat =
      (match s.rc.role with
       | .init => 0 | .standby => 1 | .takeover => 2 | .active => 3 | .handoff => 4 | .released => 5) +
      8 * s.rc.closing.toNat + 16 * (match s.rc.sync with | .unsynced => 0 | .syncing => 1 | .inSync => 2) +
      256 * (match s.link.state with | .off => 0 | .train => 1 | .hello => 2 | .up => 3 | .incompatible => 4) +
      4096 * (match s.link.view with
        | .none => 0 | .paired => 1 | .interrupted => 2 | .lost => if s.rc.claimIn then 3 else 4) +
      65536 * (match s.rc.unit with | .a => 0 | .b => 1) ∧
    (statusWord s 1).toNat = s.rc.epoch.toNat + 2 ^ 32 * s.pass.gen.toNat ∧
    (statusWord s 2).toNat =
      s.csu.result.code.toNat + 256 * (match s.csu.result.result with
        | .ok => 0 | .okClamped => 1 | .wrongRole => 2 | .badArgument => 3 | .overlap => 4 | .capacity => 5
        | .notPaired => 6 | .peerActive => 7 | .timeout => 8 | .linkLost => 9 | .aborted => 10
        | .unknownCommand => 11) +
      65536 * s.csu.result.field.toNat + 2 ^ 63 * s.csu.result.done.toNat ∧
    (statusWord s 3).toNat = s.csu.pendingSet.toNat ∧
    (dirtyTotal s.rts ≤ 65536 → staleTotal s.rts ≤ 65536 →
      (statusWord s 4).toNat = dirtyTotal s.rts + 2 ^ 32 * staleTotal s.rts) ∧
    (s.disp.inFlight.length ≤ 16 → s.journals.queue.length ≤ 128 → s.rts.outstanding ≤ 65536 →
      (statusWord s 5).toNat =
        s.disp.inFlight.length + 256 * s.journals.queue.length + 2 ^ 32 * s.rts.outstanding) ∧
    (s.csu.discard.place < 65536 →
      (statusWord s 6).toNat =
        (match s.csu.discard.marker with | .none => 0 | .record => 1 | .journalBlock => 2 | .journalWord => 3) +
        256 * s.csu.discard.slot.val + 65536 * s.csu.discard.place) ∧
    (∀ k : Slot, (statusWord s 7).getLsbD k.val = decide (s.journals.states[k] = some .desync)) ∧
    (statusWord s 7).toNat / 256 = 2 ^ 24 * s.csu.violation.toNat ∧
    (∀ k : Slot, (statusWord s (8 + k.val)).toNat = s.apply.counts[k].toNat) ∧
    (statusWord s 16).toNat = s.bpt.suppressed.toNat ∧
    (statusWord s 17).toNat = s.disp.corrected.toNat + 2 ^ 32 * s.link.crcErrors.toNat ∧
    (statusWord s 18).toNat = s.link.protocolErrors.toNat ∧ ∀ w, 19 ≤ w → statusWord s w = 0) ∧
  ∀ (c : Instr) (s t : State), s.bpt.waitCount < 32 → InterruptLaw s → exec c s = .next t →
    (∀ w ∈ [0, 1, 3, 6, 7], statusWord t w ≠ statusWord s w →
      pendingValue w t.csu.postQueue = some (statusWord t w)) ∧
    (s.csu.pendingSet.getLsbD Notice.roleChanged.bit = false →
      t.csu.pendingSet.getLsbD Notice.roleChanged.bit = true →
      pendingValue 0 t.csu.postQueue = some (statusWord t 0)) ∧
    (t.csu.result ≠ s.csu.result →
      t.csu.resultHold = some (statusWord t 2) ∨ pendingValue 2 t.csu.postQueue = some (statusWord t 2)) ∧
    (t.csu.intHigh = false ↔ t.csu.pendingSet &&& t.csu.enableSet ≠ 0)

/-- The events of one tag in the store (R36 to R45): the tag moves as the table of R37 says, an acknowledgement sets
its covered mark, no other tag moves, and the totals of the states follow. -/
def Obligations.TagTable : Prop :=
  (∀ b : Bool, ∀ e : TagEvent, ∀ x : TagState,
    (tagAfter e ⟨x, b⟩).covered = (b || decide (e = .acknowledgement)) ∧
    (tagAfter e ⟨x, b⟩).state =
      match e, x with
      | .structuralCapture, .clean => .dirty
      | .structuralCapture, .stale => .dirty
      | .structuralCapture, .flight => .flightDirty
      | .structuralCapture, .flightStale => .flightDirty
      | .volatileCapture, .clean => .stale
      | .volatileCapture, .flight => .flightStale
      | .selection, .dirty => .flight
      | .readoutRestart, .flightStale => .flight
      | .readoutRestart, .flightDirty => .flight
      | .acknowledgement, .flight => .clean
      | .acknowledgement, .flightStale => .stale
      | .acknowledgement, .flightDirty => .dirty
      | .goBack, .flight => .dirty
      | .goBack, .flightStale => .dirty
      | .goBack, .flightDirty => .dirty
      | .refreshVisit, .stale => .dirty
      | .refreshVisit, .flightStale => .flightDirty
      | .syncVisit, .clean => if b then .clean else .dirty
      | .syncVisit, .stale => if b then .stale else .dirty
      | _, y => y) ∧
  (∀ (e : TagEvent) (n : Nat) (s : State), TagForm s →
    let t := tagEvent e n s
    let old := (tagAt s.rts n).state
    let new := (tagAfter e (tagAt s.rts n)).state
    TagForm t ∧ (∀ m, tagAt t.rts m = if m = n then tagAfter e (tagAt s.rts n) else tagAt s.rts m) ∧
    ∀ x, x ≠ .clean →
      tagTotal x t.rts + (if old = x then 1 else 0) = tagTotal x s.rts + (if new = x then 1 else 0))

/-! ## Words of memory and frames of the cable -/

/-- R180: the code position of every data bit, the data bits each byte enable covers, and the check lines: flipping
line j alone, for j = 0..6, gives a syndrome of 2^j with odd parity, and flipping line 7 alone a syndrome of 0 with
odd parity. -/
def Obligations.CheckBitPlaces : Prop :=
  (dataPosition 0 = 3 ∧ (∀ i, 1 ≤ i → i ≤ 3 → dataPosition i = i + 4) ∧
    (∀ i, 4 ≤ i → i ≤ 10 → dataPosition i = i + 5) ∧ (∀ i, 11 ≤ i → i ≤ 25 → dataPosition i = i + 6) ∧
    (∀ i, 26 ≤ i → i ≤ 56 → dataPosition i = i + 7) ∧ (∀ i, 57 ≤ i → i ≤ 63 → dataPosition i = i + 8)) ∧
  (∀ (enables : Byte) (b i : Nat), b < 8 → 8 * b ≤ i → i ≤ 8 * b + 7 →
    (byteMask enables).getLsbD i = enables.getLsbD b) ∧
  (∀ (d : DWord) (j : Nat), j ≤ 6 →
    syndrome ⟨d, checkBits d ^^^ BitVec.twoPow 8 j⟩ = BitVec.twoPow 7 j ∧
    overallOdd ⟨d, checkBits d ^^^ BitVec.twoPow 8 j⟩ = true) ∧
  (∀ d : DWord, syndrome ⟨d, checkBits d ^^^ 0x80⟩ = 0 ∧ overallOdd ⟨d, checkBits d ^^^ 0x80⟩ = true)

/-- The check-bit code over every word (R33, R34): a word the part writes reads GOOD with its data; with one of its
72 bits flipped it reads CORRECTED with its data; with two flipped it reads UNCORRECTABLE with the data as read. -/
def Obligations.SingleCorrectedDoubleFound : Prop :=
  ∀ d : DWord,
    classify (codedWord d) = (.good, d) ∧
    (∀ i, i < 64 → classify ⟨d ^^^ BitVec.twoPow 64 i, checkBits d⟩ = (.corrected, d)) ∧
    (∀ j, j < 8 → classify ⟨d, checkBits d ^^^ BitVec.twoPow 8 j⟩ = (.corrected, d)) ∧
    (∀ i j, i < j → j < 64 →
      classify ⟨d ^^^ BitVec.twoPow 64 i ^^^ BitVec.twoPow 64 j, checkBits d⟩ =
        (.uncorrectable, d ^^^ BitVec.twoPow 64 i ^^^ BitVec.twoPow 64 j)) ∧
    (∀ i j, i < 64 → j < 8 →
      classify ⟨d ^^^ BitVec.twoPow 64 i, checkBits d ^^^ BitVec.twoPow 8 j⟩ =
        (.uncorrectable, d ^^^ BitVec.twoPow 64 i)) ∧
    (∀ i j, i < j → j < 8 →
      classify ⟨d, checkBits d ^^^ BitVec.twoPow 8 i ^^^ BitVec.twoPow 8 j⟩ = (.uncorrectable, d))

/-- Every frame the part can send is read back from its bytes as that frame, and is invalid when it is ended short
or when a go-back has inverted its CRC (R59, R88, R89, R91, R172 to R174). -/
def Obligations.FrameRoundTrip : Prop :=
  ∀ f : Frame, (∀ q, f = .sequenced q → q.body.sized = true) →
    parseFrame (frameBytes f) false = some f ∧
    lengthOf (contentBytes f) = some (frameBytes f).length ∧
    parseFrame (frameBytes f) true = none ∧
    (∀ n, n < (frameBytes f).length → parseFrame ((frameBytes f).take n) false = none) ∧
    parseFrame (sendingBytes ⟨f, true⟩) false = none

/-! ## What every step keeps -/

/-- Every step, of a command or of the idle part, keeps the canonical form of the SSRAM, INT_N's rule (R171), the rooms
of the counts and lists (R31, R65, R71, R103, R166), every pending state word at its present value (R166), and the list of
the part requests that wait (R30, R31). -/
def Obligations.BasicLawsKept : Prop :=
  ∀ s t : State, MemoryLaw s → InterruptLaw s → RoomLaw s → PostedLaw s → step s = .next t →
    MemoryLaw t ∧ InterruptLaw t ∧ RoomLaw t ∧ PostedLaw t ∧ (OffersLaw s → OffersLaw t)

/-- Every step keeps what the role says of the other blocks (R57, R79, R104, R128, R133, R134, R146, R152, R154), the
agreement of the peer view with the link state (R101), the rule of a stalled write (R26, R27), that a read is held only
while an entry covers it (R28, R29), that a LOST bus clock has stopped (R157), and that a frame is being sent only in
HELLO and UP (R56, R79, R80). That the move to INCOMPATIBLE leaves no HELLO being sent is log entry 28's choice. -/
def Obligations.RoleKept : Prop :=
  ∀ s t : State, RoleLaw s → LinkLaw s → StallLaw s → step s = .next t →
    RoleLaw t ∧ LinkLaw t ∧ StallLaw t ∧ (ReadLaw s → ReadLaw t) ∧ (SendingLaw s → SendingLaw t)

/-- Every step keeps the Window Table legal: windows in their ranges, apart from one another and from the two pages,
at most 65,536 records, and the tag bases of R3 (R1, R3, R5 to R11). -/
def Obligations.WindowKept : Prop :=
  ∀ s t : State, RoleLaw s → WindowLaw s → step s = .next t → WindowLaw t

/-- Every step keeps U equal to the number of clear covered marks during a full sync and 0 outside one (R52), and
keeps the records in flight and the flight family the same set, each once (R35, R40). -/
def Obligations.TagsKept : Prop :=
  ∀ s t : State, RoleLaw s → LinkLaw s → WindowLaw s → CoverLaw s → FlightLaw s → step s = .next t →
    CoverLaw t ∧ FlightLaw t

/-- Every step keeps the sequence numbers of the in-flight list consecutive with the transmitted entries in front
(R65), the sent front of the Journal Queue equal to the journal entries of the list (R71), and every readout slot that an
entry names reading that entry's own item, a record at an index below its N, with no other slot occupied (R60, R65). -/
def Obligations.SendingKept : Prop :=
  ∀ s t : State, RoleLaw s → SequenceLaw s → JournalLaw s → step s = .next t →
    SequenceLaw t ∧ JournalLaw t ∧ (ReadoutLaw s → ReadoutLaw t)
end

