-- ==== Sys2Proof/Laws/State.lean ====
section
/-! SUPPORT. What changing one block leaves of each block: one lemma for each field of each update. -/

namespace Sys2Proof.Machine

variable (s : State)

@[simp] theorem State.onBpt_windows (f : Bpt → Bpt) : (s.onBpt f).windows = s.windows := rfl
@[simp] theorem State.onBpt_bpt (f : Bpt → Bpt) : (s.onBpt f).bpt = f s.bpt := rfl
@[simp] theorem State.onBpt_rts (f : Bpt → Bpt) : (s.onBpt f).rts = s.rts := rfl
@[simp] theorem State.onBpt_journals (f : Bpt → Bpt) : (s.onBpt f).journals = s.journals := rfl
@[simp] theorem State.onBpt_disp (f : Bpt → Bpt) : (s.onBpt f).disp = s.disp := rfl
@[simp] theorem State.onBpt_link (f : Bpt → Bpt) : (s.onBpt f).link = s.link := rfl
@[simp] theorem State.onBpt_apply (f : Bpt → Bpt) : (s.onBpt f).apply = s.apply := rfl
@[simp] theorem State.onBpt_pass (f : Bpt → Bpt) : (s.onBpt f).pass = s.pass := rfl
@[simp] theorem State.onBpt_rc (f : Bpt → Bpt) : (s.onBpt f).rc = s.rc := rfl
@[simp] theorem State.onBpt_csu (f : Bpt → Bpt) : (s.onBpt f).csu = s.csu := rfl
@[simp] theorem State.onBpt_mem (f : Bpt → Bpt) : (s.onBpt f).mem = s.mem := rfl
@[simp] theorem State.onBpt_draws (f : Bpt → Bpt) : (s.onBpt f).draws = s.draws := rfl
@[simp] theorem State.onBpt_pending (f : Bpt → Bpt) : (s.onBpt f).pending = s.pending := rfl

@[simp] theorem State.onRts_windows (f : Rts → Rts) : (s.onRts f).windows = s.windows := rfl
@[simp] theorem State.onRts_bpt (f : Rts → Rts) : (s.onRts f).bpt = s.bpt := rfl
@[simp] theorem State.onRts_rts (f : Rts → Rts) : (s.onRts f).rts = f s.rts := rfl
@[simp] theorem State.onRts_journals (f : Rts → Rts) : (s.onRts f).journals = s.journals := rfl
@[simp] theorem State.onRts_disp (f : Rts → Rts) : (s.onRts f).disp = s.disp := rfl
@[simp] theorem State.onRts_link (f : Rts → Rts) : (s.onRts f).link = s.link := rfl
@[simp] theorem State.onRts_apply (f : Rts → Rts) : (s.onRts f).apply = s.apply := rfl
@[simp] theorem State.onRts_pass (f : Rts → Rts) : (s.onRts f).pass = s.pass := rfl
@[simp] theorem State.onRts_rc (f : Rts → Rts) : (s.onRts f).rc = s.rc := rfl
@[simp] theorem State.onRts_csu (f : Rts → Rts) : (s.onRts f).csu = s.csu := rfl
@[simp] theorem State.onRts_mem (f : Rts → Rts) : (s.onRts f).mem = s.mem := rfl
@[simp] theorem State.onRts_draws (f : Rts → Rts) : (s.onRts f).draws = s.draws := rfl
@[simp] theorem State.onRts_pending (f : Rts → Rts) : (s.onRts f).pending = s.pending := rfl

@[simp] theorem State.onJournals_windows (f : Journals → Journals) : (s.onJournals f).windows = s.windows := rfl
@[simp] theorem State.onJournals_bpt (f : Journals → Journals) : (s.onJournals f).bpt = s.bpt := rfl
@[simp] theorem State.onJournals_rts (f : Journals → Journals) : (s.onJournals f).rts = s.rts := rfl
@[simp] theorem State.onJournals_journals (f : Journals → Journals) : (s.onJournals f).journals = f s.journals := rfl
@[simp] theorem State.onJournals_disp (f : Journals → Journals) : (s.onJournals f).disp = s.disp := rfl
@[simp] theorem State.onJournals_link (f : Journals → Journals) : (s.onJournals f).link = s.link := rfl
@[simp] theorem State.onJournals_apply (f : Journals → Journals) : (s.onJournals f).apply = s.apply := rfl
@[simp] theorem State.onJournals_pass (f : Journals → Journals) : (s.onJournals f).pass = s.pass := rfl
@[simp] theorem State.onJournals_rc (f : Journals → Journals) : (s.onJournals f).rc = s.rc := rfl
@[simp] theorem State.onJournals_csu (f : Journals → Journals) : (s.onJournals f).csu = s.csu := rfl
@[simp] theorem State.onJournals_mem (f : Journals → Journals) : (s.onJournals f).mem = s.mem := rfl
@[simp] theorem State.onJournals_draws (f : Journals → Journals) : (s.onJournals f).draws = s.draws := rfl
@[simp] theorem State.onJournals_pending (f : Journals → Journals) : (s.onJournals f).pending = s.pending := rfl

@[simp] theorem State.onDisp_windows (f : Dispatcher → Dispatcher) : (s.onDisp f).windows = s.windows := rfl
@[simp] theorem State.onDisp_bpt (f : Dispatcher → Dispatcher) : (s.onDisp f).bpt = s.bpt := rfl
@[simp] theorem State.onDisp_rts (f : Dispatcher → Dispatcher) : (s.onDisp f).rts = s.rts := rfl
@[simp] theorem State.onDisp_journals (f : Dispatcher → Dispatcher) : (s.onDisp f).journals = s.journals := rfl
@[simp] theorem State.onDisp_disp (f : Dispatcher → Dispatcher) : (s.onDisp f).disp = f s.disp := rfl
@[simp] theorem State.onDisp_link (f : Dispatcher → Dispatcher) : (s.onDisp f).link = s.link := rfl
@[simp] theorem State.onDisp_apply (f : Dispatcher → Dispatcher) : (s.onDisp f).apply = s.apply := rfl
@[simp] theorem State.onDisp_pass (f : Dispatcher → Dispatcher) : (s.onDisp f).pass = s.pass := rfl
@[simp] theorem State.onDisp_rc (f : Dispatcher → Dispatcher) : (s.onDisp f).rc = s.rc := rfl
@[simp] theorem State.onDisp_csu (f : Dispatcher → Dispatcher) : (s.onDisp f).csu = s.csu := rfl
@[simp] theorem State.onDisp_mem (f : Dispatcher → Dispatcher) : (s.onDisp f).mem = s.mem := rfl
@[simp] theorem State.onDisp_draws (f : Dispatcher → Dispatcher) : (s.onDisp f).draws = s.draws := rfl
@[simp] theorem State.onDisp_pending (f : Dispatcher → Dispatcher) : (s.onDisp f).pending = s.pending := rfl

@[simp] theorem State.onLink_windows (f : Link → Link) : (s.onLink f).windows = s.windows := rfl
@[simp] theorem State.onLink_bpt (f : Link → Link) : (s.onLink f).bpt = s.bpt := rfl
@[simp] theorem State.onLink_rts (f : Link → Link) : (s.onLink f).rts = s.rts := rfl
@[simp] theorem State.onLink_journals (f : Link → Link) : (s.onLink f).journals = s.journals := rfl
@[simp] theorem State.onLink_disp (f : Link → Link) : (s.onLink f).disp = s.disp := rfl
@[simp] theorem State.onLink_link (f : Link → Link) : (s.onLink f).link = f s.link := rfl
@[simp] theorem State.onLink_apply (f : Link → Link) : (s.onLink f).apply = s.apply := rfl
@[simp] theorem State.onLink_pass (f : Link → Link) : (s.onLink f).pass = s.pass := rfl
@[simp] theorem State.onLink_rc (f : Link → Link) : (s.onLink f).rc = s.rc := rfl
@[simp] theorem State.onLink_csu (f : Link → Link) : (s.onLink f).csu = s.csu := rfl
@[simp] theorem State.onLink_mem (f : Link → Link) : (s.onLink f).mem = s.mem := rfl
@[simp] theorem State.onLink_draws (f : Link → Link) : (s.onLink f).draws = s.draws := rfl
@[simp] theorem State.onLink_pending (f : Link → Link) : (s.onLink f).pending = s.pending := rfl

@[simp] theorem State.onApply_windows (f : ApplyEngine → ApplyEngine) : (s.onApply f).windows = s.windows := rfl
@[simp] theorem State.onApply_bpt (f : ApplyEngine → ApplyEngine) : (s.onApply f).bpt = s.bpt := rfl
@[simp] theorem State.onApply_rts (f : ApplyEngine → ApplyEngine) : (s.onApply f).rts = s.rts := rfl
@[simp] theorem State.onApply_journals (f : ApplyEngine → ApplyEngine) : (s.onApply f).journals = s.journals := rfl
@[simp] theorem State.onApply_disp (f : ApplyEngine → ApplyEngine) : (s.onApply f).disp = s.disp := rfl
@[simp] theorem State.onApply_link (f : ApplyEngine → ApplyEngine) : (s.onApply f).link = s.link := rfl
@[simp] theorem State.onApply_apply (f : ApplyEngine → ApplyEngine) : (s.onApply f).apply = f s.apply := rfl
@[simp] theorem State.onApply_pass (f : ApplyEngine → ApplyEngine) : (s.onApply f).pass = s.pass := rfl
@[simp] theorem State.onApply_rc (f : ApplyEngine → ApplyEngine) : (s.onApply f).rc = s.rc := rfl
@[simp] theorem State.onApply_csu (f : ApplyEngine → ApplyEngine) : (s.onApply f).csu = s.csu := rfl
@[simp] theorem State.onApply_mem (f : ApplyEngine → ApplyEngine) : (s.onApply f).mem = s.mem := rfl
@[simp] theorem State.onApply_draws (f : ApplyEngine → ApplyEngine) : (s.onApply f).draws = s.draws := rfl
@[simp] theorem State.onApply_pending (f : ApplyEngine → ApplyEngine) : (s.onApply f).pending = s.pending := rfl

@[simp] theorem State.onPass_windows (f : PassEngine → PassEngine) : (s.onPass f).windows = s.windows := rfl
@[simp] theorem State.onPass_bpt (f : PassEngine → PassEngine) : (s.onPass f).bpt = s.bpt := rfl
@[simp] theorem State.onPass_rts (f : PassEngine → PassEngine) : (s.onPass f).rts = s.rts := rfl
@[simp] theorem State.onPass_journals (f : PassEngine → PassEngine) : (s.onPass f).journals = s.journals := rfl
@[simp] theorem State.onPass_disp (f : PassEngine → PassEngine) : (s.onPass f).disp = s.disp := rfl
@[simp] theorem State.onPass_link (f : PassEngine → PassEngine) : (s.onPass f).link = s.link := rfl
@[simp] theorem State.onPass_apply (f : PassEngine → PassEngine) : (s.onPass f).apply = s.apply := rfl
@[simp] theorem State.onPass_pass (f : PassEngine → PassEngine) : (s.onPass f).pass = f s.pass := rfl
@[simp] theorem State.onPass_rc (f : PassEngine → PassEngine) : (s.onPass f).rc = s.rc := rfl
@[simp] theorem State.onPass_csu (f : PassEngine → PassEngine) : (s.onPass f).csu = s.csu := rfl
@[simp] theorem State.onPass_mem (f : PassEngine → PassEngine) : (s.onPass f).mem = s.mem := rfl
@[simp] theorem State.onPass_draws (f : PassEngine → PassEngine) : (s.onPass f).draws = s.draws := rfl
@[simp] theorem State.onPass_pending (f : PassEngine → PassEngine) : (s.onPass f).pending = s.pending := rfl

@[simp] theorem State.onRc_windows (f : RoleController → RoleController) : (s.onRc f).windows = s.windows := rfl
@[simp] theorem State.onRc_bpt (f : RoleController → RoleController) : (s.onRc f).bpt = s.bpt := rfl
@[simp] theorem State.onRc_rts (f : RoleController → RoleController) : (s.onRc f).rts = s.rts := rfl
@[simp] theorem State.onRc_journals (f : RoleController → RoleController) : (s.onRc f).journals = s.journals := rfl
@[simp] theorem State.onRc_disp (f : RoleController → RoleController) : (s.onRc f).disp = s.disp := rfl
@[simp] theorem State.onRc_link (f : RoleController → RoleController) : (s.onRc f).link = s.link := rfl
@[simp] theorem State.onRc_apply (f : RoleController → RoleController) : (s.onRc f).apply = s.apply := rfl
@[simp] theorem State.onRc_pass (f : RoleController → RoleController) : (s.onRc f).pass = s.pass := rfl
@[simp] theorem State.onRc_rc (f : RoleController → RoleController) : (s.onRc f).rc = f s.rc := rfl
@[simp] theorem State.onRc_csu (f : RoleController → RoleController) : (s.onRc f).csu = s.csu := rfl
@[simp] theorem State.onRc_mem (f : RoleController → RoleController) : (s.onRc f).mem = s.mem := rfl
@[simp] theorem State.onRc_draws (f : RoleController → RoleController) : (s.onRc f).draws = s.draws := rfl
@[simp] theorem State.onRc_pending (f : RoleController → RoleController) : (s.onRc f).pending = s.pending := rfl

@[simp] theorem State.onCsu_windows (f : Csu → Csu) : (s.onCsu f).windows = s.windows := rfl
@[simp] theorem State.onCsu_bpt (f : Csu → Csu) : (s.onCsu f).bpt = s.bpt := rfl
@[simp] theorem State.onCsu_rts (f : Csu → Csu) : (s.onCsu f).rts = s.rts := rfl
@[simp] theorem State.onCsu_journals (f : Csu → Csu) : (s.onCsu f).journals = s.journals := rfl
@[simp] theorem State.onCsu_disp (f : Csu → Csu) : (s.onCsu f).disp = s.disp := rfl
@[simp] theorem State.onCsu_link (f : Csu → Csu) : (s.onCsu f).link = s.link := rfl
@[simp] theorem State.onCsu_apply (f : Csu → Csu) : (s.onCsu f).apply = s.apply := rfl
@[simp] theorem State.onCsu_pass (f : Csu → Csu) : (s.onCsu f).pass = s.pass := rfl
@[simp] theorem State.onCsu_rc (f : Csu → Csu) : (s.onCsu f).rc = s.rc := rfl
@[simp] theorem State.onCsu_csu (f : Csu → Csu) : (s.onCsu f).csu = f s.csu := rfl
@[simp] theorem State.onCsu_mem (f : Csu → Csu) : (s.onCsu f).mem = s.mem := rfl
@[simp] theorem State.onCsu_draws (f : Csu → Csu) : (s.onCsu f).draws = s.draws := rfl
@[simp] theorem State.onCsu_pending (f : Csu → Csu) : (s.onCsu f).pending = s.pending := rfl

@[simp] theorem State.onMem_windows (f : Memory → Memory) : (s.onMem f).windows = s.windows := rfl
@[simp] theorem State.onMem_bpt (f : Memory → Memory) : (s.onMem f).bpt = s.bpt := rfl
@[simp] theorem State.onMem_rts (f : Memory → Memory) : (s.onMem f).rts = s.rts := rfl
@[simp] theorem State.onMem_journals (f : Memory → Memory) : (s.onMem f).journals = s.journals := rfl
@[simp] theorem State.onMem_disp (f : Memory → Memory) : (s.onMem f).disp = s.disp := rfl
@[simp] theorem State.onMem_link (f : Memory → Memory) : (s.onMem f).link = s.link := rfl
@[simp] theorem State.onMem_apply (f : Memory → Memory) : (s.onMem f).apply = s.apply := rfl
@[simp] theorem State.onMem_pass (f : Memory → Memory) : (s.onMem f).pass = s.pass := rfl
@[simp] theorem State.onMem_rc (f : Memory → Memory) : (s.onMem f).rc = s.rc := rfl
@[simp] theorem State.onMem_csu (f : Memory → Memory) : (s.onMem f).csu = s.csu := rfl
@[simp] theorem State.onMem_mem (f : Memory → Memory) : (s.onMem f).mem = f s.mem := rfl
@[simp] theorem State.onMem_draws (f : Memory → Memory) : (s.onMem f).draws = s.draws := rfl
@[simp] theorem State.onMem_pending (f : Memory → Memory) : (s.onMem f).pending = s.pending := rfl

@[simp] theorem State.onWindows_windows (f : Vector Window 8 → Vector Window 8) : (s.onWindows f).windows = f s.windows := rfl
@[simp] theorem State.onWindows_bpt (f : Vector Window 8 → Vector Window 8) : (s.onWindows f).bpt = s.bpt := rfl
@[simp] theorem State.onWindows_rts (f : Vector Window 8 → Vector Window 8) : (s.onWindows f).rts = s.rts := rfl
@[simp] theorem State.onWindows_journals (f : Vector Window 8 → Vector Window 8) : (s.onWindows f).journals = s.journals := rfl
@[simp] theorem State.onWindows_disp (f : Vector Window 8 → Vector Window 8) : (s.onWindows f).disp = s.disp := rfl
@[simp] theorem State.onWindows_link (f : Vector Window 8 → Vector Window 8) : (s.onWindows f).link = s.link := rfl
@[simp] theorem State.onWindows_apply (f : Vector Window 8 → Vector Window 8) : (s.onWindows f).apply = s.apply := rfl
@[simp] theorem State.onWindows_pass (f : Vector Window 8 → Vector Window 8) : (s.onWindows f).pass = s.pass := rfl
@[simp] theorem State.onWindows_rc (f : Vector Window 8 → Vector Window 8) : (s.onWindows f).rc = s.rc := rfl
@[simp] theorem State.onWindows_csu (f : Vector Window 8 → Vector Window 8) : (s.onWindows f).csu = s.csu := rfl
@[simp] theorem State.onWindows_mem (f : Vector Window 8 → Vector Window 8) : (s.onWindows f).mem = s.mem := rfl
@[simp] theorem State.onWindows_draws (f : Vector Window 8 → Vector Window 8) : (s.onWindows f).draws = s.draws := rfl
@[simp] theorem State.onWindows_pending (f : Vector Window 8 → Vector Window 8) : (s.onWindows f).pending = s.pending := rfl

@[simp] theorem State.draw_windows : s.draw.windows = s.windows := rfl
@[simp] theorem State.draw_bpt : s.draw.bpt = s.bpt := rfl
@[simp] theorem State.draw_rts : s.draw.rts = s.rts := rfl
@[simp] theorem State.draw_journals : s.draw.journals = s.journals := rfl
@[simp] theorem State.draw_disp : s.draw.disp = s.disp := rfl
@[simp] theorem State.draw_link : s.draw.link = s.link := rfl
@[simp] theorem State.draw_apply : s.draw.apply = s.apply := rfl
@[simp] theorem State.draw_pass : s.draw.pass = s.pass := rfl
@[simp] theorem State.draw_rc : s.draw.rc = s.rc := rfl
@[simp] theorem State.draw_csu : s.draw.csu = s.csu := rfl
@[simp] theorem State.draw_mem : s.draw.mem = s.mem := rfl
@[simp] theorem State.draw_draws : s.draw.draws = s.draws + 1 := rfl
@[simp] theorem State.draw_pending : s.draw.pending = s.pending := rfl

end Sys2Proof.Machine
end

