-- ==== Sys2Proof/Laws/Close.lean ====
section
/-! SUPPORT. The close of a step: everything it can do, and the view of the state it leaves alone. -/

namespace Sys2Proof.Machine

/-- Posting changed words changes the posting queue and nothing else. -/
theorem postChanged_spec (b : State) (ws : List Nat) (s : State) :
    ∃ q, postChanged b ws s = s.onCsu fun c => { c with postQueue := q } := by
  induction ws generalizing s with
  | nil => exact ⟨s.csu.postQueue, rfl⟩
  | cons w ws ih =>
    simp only [postChanged]
    split
    · exact ih s
    · obtain ⟨q, hq⟩ := ih (post w (statusWord s w) s)
      exact ⟨q, by rw [hq]; rfl⟩

/-- Everything the close of a step can do. -/
theorem close_spec (b s : State) :
    ∃ q o n, close b s =
      { s with
        bpt := { s.bpt with offers := o, waitCount := n }
        csu := { s.csu with postQueue := q, intHigh := intLevel s.csu } } := by
  obtain ⟨q, hq⟩ := postChanged_spec b stateWords (driveInt s)
  refine ⟨q, (close b s).bpt.offers, (close b s).bpt.waitCount, ?_⟩
  unfold close
  rw [hq]
  rfl

section
variable (b s : State)

@[simp] theorem close_windows : (close b s).windows = s.windows := by
  obtain ⟨q, o, n, h⟩ := close_spec b s; rw [h]
@[simp] theorem close_rts : (close b s).rts = s.rts := by
  obtain ⟨q, o, n, h⟩ := close_spec b s; rw [h]
@[simp] theorem close_journals : (close b s).journals = s.journals := by
  obtain ⟨q, o, n, h⟩ := close_spec b s; rw [h]
@[simp] theorem close_disp : (close b s).disp = s.disp := by
  obtain ⟨q, o, n, h⟩ := close_spec b s; rw [h]
@[simp] theorem close_link : (close b s).link = s.link := by
  obtain ⟨q, o, n, h⟩ := close_spec b s; rw [h]
@[simp] theorem close_apply : (close b s).apply = s.apply := by
  obtain ⟨q, o, n, h⟩ := close_spec b s; rw [h]
@[simp] theorem close_pass : (close b s).pass = s.pass := by
  obtain ⟨q, o, n, h⟩ := close_spec b s; rw [h]
@[simp] theorem close_rc : (close b s).rc = s.rc := by
  obtain ⟨q, o, n, h⟩ := close_spec b s; rw [h]
@[simp] theorem close_mem : (close b s).mem = s.mem := by
  obtain ⟨q, o, n, h⟩ := close_spec b s; rw [h]
@[simp] theorem close_draws : (close b s).draws = s.draws := by
  obtain ⟨q, o, n, h⟩ := close_spec b s; rw [h]
@[simp] theorem close_pending : (close b s).pending = s.pending := by
  obtain ⟨q, o, n, h⟩ := close_spec b s; rw [h]
@[simp] theorem close_shadow : (close b s).bpt.shadow = s.bpt.shadow := by
  obtain ⟨q, o, n, h⟩ := close_spec b s; rw [h]
@[simp] theorem close_held : (close b s).bpt.held = s.bpt.held := by
  obtain ⟨q, o, n, h⟩ := close_spec b s; rw [h]
@[simp] theorem close_waiting : (close b s).bpt.waiting = s.bpt.waiting := by
  obtain ⟨q, o, n, h⟩ := close_spec b s; rw [h]
@[simp] theorem close_suppressed : (close b s).bpt.suppressed = s.bpt.suppressed := by
  obtain ⟨q, o, n, h⟩ := close_spec b s; rw [h]
@[simp] theorem close_readData : (close b s).bpt.readData = s.bpt.readData := by
  obtain ⟨q, o, n, h⟩ := close_spec b s; rw [h]
@[simp] theorem close_running : (close b s).csu.running = s.csu.running := by
  obtain ⟨q, o, n, h⟩ := close_spec b s; rw [h]
@[simp] theorem close_result : (close b s).csu.result = s.csu.result := by
  obtain ⟨q, o, n, h⟩ := close_spec b s; rw [h]
@[simp] theorem close_timing : (close b s).csu.timing = s.csu.timing := by
  obtain ⟨q, o, n, h⟩ := close_spec b s; rw [h]
@[simp] theorem close_pendingSet : (close b s).csu.pendingSet = s.csu.pendingSet := by
  obtain ⟨q, o, n, h⟩ := close_spec b s; rw [h]
@[simp] theorem close_enableSet : (close b s).csu.enableSet = s.csu.enableSet := by
  obtain ⟨q, o, n, h⟩ := close_spec b s; rw [h]
@[simp] theorem close_resultHold : (close b s).csu.resultHold = s.csu.resultHold := by
  obtain ⟨q, o, n, h⟩ := close_spec b s; rw [h]
@[simp] theorem close_lastCounts : (close b s).csu.lastCounts = s.csu.lastCounts := by
  obtain ⟨q, o, n, h⟩ := close_spec b s; rw [h]
@[simp] theorem close_postClock : (close b s).csu.postClock = s.csu.postClock := by
  obtain ⟨q, o, n, h⟩ := close_spec b s; rw [h]
@[simp] theorem close_discard : (close b s).csu.discard = s.csu.discard := by
  obtain ⟨q, o, n, h⟩ := close_spec b s; rw [h]
@[simp] theorem close_violation : (close b s).csu.violation = s.csu.violation := by
  obtain ⟨q, o, n, h⟩ := close_spec b s; rw [h]

/-- INT_N follows the two sets at every close (R171). -/
@[simp] theorem close_intHigh : (close b s).csu.intHigh = intLevel s.csu := by
  obtain ⟨q, o, n, h⟩ := close_spec b s; rw [h]

/-- The close changes nothing that the view shows. -/
@[simp] theorem close_unreported : (close b s).unreported = s.unreported := by
  obtain ⟨q, o, n, h⟩ := close_spec b s; rw [h]; rfl

end

/-- The close leaves a waiting count below 32 below 32 (R31). -/
theorem close_waitCount_lt (b s : State) (h : s.bpt.waitCount < 32) : (close b s).bpt.waitCount < 32 := by
  obtain ⟨q, hq⟩ := postChanged_spec b stateWords (driveInt s)
  unfold close
  rw [hq]
  simp only [settleOffers, State.onBpt_bpt]
  split
  · omega
  · exact h

/-- The close of a step in which an event may end a stall (R27), where no journal write is stalled. -/
theorem finish_unreported (b s : State) (h : ∀ a n, s.bpt.held ≠ .stall a n) :
    (finish b s).unreported = s.unreported := by
  have h' : resolveStall (close b s) = close b s := by
    unfold resolveStall
    split
    · rename_i a n hh
      exact absurd (by simpa using hh) (h a n)
    · rfl
  simp [finish, h']

/-- An event that may end a stall, where no room has appeared for one (R26, R27). -/
theorem takeEvent_noRoom {f : State → State} {s : State} (h : stallHasRoom s = false) :
    takeEvent f s = finish s (f s) := by
  have hr : stallRoom s = s := by
    unfold stallRoom
    split
    · split
      · simp [h]
      · rfl
    · rfl
  simp [takeEvent, hr]

/-! ## The view of one block at a time -/

section
variable {s t : State}

/-- Two states equal under the view agree on everything but what the close settles. -/
theorem unreported_fields (h : t.unreported = s.unreported) :
    t.windows = s.windows ∧ t.rts = s.rts ∧ t.journals = s.journals ∧ t.disp = s.disp ∧ t.link = s.link ∧
    t.apply = s.apply ∧ t.pass = s.pass ∧ t.rc = s.rc ∧ t.mem = s.mem ∧ t.draws = s.draws ∧
    t.pending = s.pending := by
  unfold State.unreported at h
  injection h
  exact ⟨by assumption, by assumption, by assumption, by assumption, by assumption, by assumption, by assumption,
    by assumption, by assumption, by assumption, by assumption⟩

end

/-! ## Notices and results -/

/-- A raise adds its kind to the pending set and changes nothing else (R169). -/
theorem raise_spec (n : Notice) (s : State) :
    raise n s = { s with csu := { s.csu with pendingSet := s.csu.pendingSet ||| n.mask } } := rfl

/-- A new result word: the result is formed, and it waits in the posting queue or in the result hold (R167). -/
theorem formResult_spec (r : ResultWord) (s : State) :
    ∃ q h, formResult r s = { s with csu := { s.csu with result := r, postQueue := q, resultHold := h } } := by
  unfold formResult
  by_cases hd : doneWaits s.csu = true
  · exact ⟨s.csu.postQueue, some r.word, by simp [State.onCsu, hd]⟩
  · exact ⟨postInto 2 r.word s.csu.postQueue, s.csu.resultHold, by simp [State.onCsu, hd]⟩

/-- The completion of a command: its result with DONE set, COMMAND_DONE, the CSU idle (R160). -/
theorem completeWith_spec (code : Byte) (r : ResultCode) (n : Nat) (s : State) :
    ∃ q h, completeWith code r n s =
      { s with
        csu :=
          { s.csu with
            running := none
            result := { code := code, result := r, field := BitVec.ofNat 32 n, done := true }
            pendingSet := s.csu.pendingSet ||| Notice.commandDone.mask
            postQueue := q
            resultHold := h } } := by
  obtain ⟨q, h, hf⟩ :=
    formResult_spec { code := code, result := r, field := BitVec.ofNat 32 n, done := true } s
  refine ⟨q, h, ?_⟩
  unfold completeWith
  rw [hf]
  rfl

end Sys2Proof.Machine
end

