-- ==== Sys2Proof/Laws/Bus.lean ====
section
/-! SUPPORT. What becomes of an access: waiting, suppressed, held, or granted the port. -/

namespace Sys2Proof.Machine

/-- On an open bus an access is taken at once (R16). -/
theorem present_open {a : Access} {s : State} (h : BusOpen s) : present a s = takeAccess a s := by
  obtain ⟨h1, h2, h3⟩ := h
  simp [present, busBlocked, clockRuns, h1, h2, h3]

/-- An access that is blocked joins the end of those that wait, and nothing else changes (R16). -/
theorem present_blocked {a : Access} {s : State} (h : busBlocked s = true ∨ s.bpt.waiting ≠ []) :
    (present a s).unreported =
      ({ s with bpt := { s.bpt with waiting := s.bpt.waiting ++ [a] } } : State).unreported := by
  have hc : (busBlocked s || !s.bpt.waiting.isEmpty) = true := by
    rcases h with h | h
    · simp [h]
    · simp [h]
  unfold present
  rw [if_pos hc, close_unreported]
  rfl

/-- The grant of a slot to an upstream access where the waiting rule does not step in (R30, R31). -/
theorem forward_granted {a : Access} {s : State} (hc : s.rc.bclkQuiet = none) (hw : s.bpt.waitCount < 32) :
    forward a s = countUpstream (driveAccess a s) := by
  have hr : waitingRule a s = none := by
    unfold waitingRule
    rw [if_neg (by omega)]
  simp [forward, clockRuns, hc, grantUpstream, hr]

@[simp] theorem countUpstream_unreported (s : State) : (countUpstream s).unreported = s.unreported := rfl

/-- The view of a memory cycle depends on the view of the state before it. -/
theorem driveAccess_unreported (a : Access) (s : State) :
    (driveAccess a s).unreported =
      if a.write then { s.unreported with mem := memDrive s.mem a }
      else { s.unreported with bpt := { s.unreported.bpt with readData := memRead s.mem a.addr } } := by
  unfold driveAccess
  split <;> rfl

/-- A suppressed access: what its decode delivered, and no memory cycle (R16). -/
theorem takeAccess_suppressed {a : Access} {s d : State} (h : decodeAccess a s = (.suppressed, d)) :
    (takeAccess a s).unreported = d.unreported := by
  simp [takeAccess, h]

/-- A held access: what its decode delivered, and the hold (R26, R28). -/
theorem takeAccess_held {a : Access} {s d : State} {x : Held} (h : decodeAccess a s = (.held x, d)) :
    (takeAccess a s).unreported = ({ d with bpt := { d.bpt with held := x } } : State).unreported := by
  obtain ⟨q, o, n, hc⟩ := close_spec s d
  simp only [takeAccess, h]
  rw [hc]
  rfl

/-- A forwarded access: what its decode delivered, and its memory cycle (R16). -/
theorem takeAccess_forwarded {a : Access} {s d : State} (h : decodeAccess a s = (.forwarded, d))
    (hc : d.rc.bclkQuiet = none) (hw : d.bpt.waitCount < 32) :
    (takeAccess a s).unreported = (driveAccess a d).unreported := by
  have h1 : (close s d).rc.bclkQuiet = none := by simpa using hc
  simp only [takeAccess, h]
  rw [close_unreported, forward_granted h1 (close_waitCount_lt s d hw), countUpstream_unreported,
    driveAccess_unreported, driveAccess_unreported]
  simp

end Sys2Proof.Machine
end

