-- ==== Sys2Proof/Laws/Offers.lean ====
section
/-! SUPPORT. The offered part requests after the close of a step. -/

namespace Sys2Proof.Machine

/-- The offers of the classes are distinct: each class offers at most one (R30). -/
theorem currentOffers_nodup (s : State) : (currentOffers s).Nodup := by
  unfold currentOffers
  (repeat' split) <;> simp

/-- A request is waiting after the close of the offers exactly where its class offers it (R30, R31). -/
theorem mem_settleOffers (s : State) (o : Offer) : o ∈ (settleOffers s).bpt.offers ↔ o ∈ currentOffers s := by
  simp only [settleOffers, State.onBpt, List.mem_append, List.mem_filter, decide_eq_true_eq]
  by_cases h : o ∈ s.bpt.offers <;> simp [h]

/-- Settling the offers lists each waiting request once and leaves the count at 0 where there is none (R31). -/
theorem settleOffers_law (s : State) (h : s.bpt.offers.Nodup) : OffersLaw (settleOffers s) := by
  have e : currentOffers (settleOffers s) = currentOffers s := rfl
  refine ⟨?_, fun o => e ▸ mem_settleOffers s o, fun hn => ?_⟩
  · refine List.Nodup.append (h.filter _) ((currentOffers_nodup s).filter _) ?_
    intro o ha hb
    simp only [List.mem_filter, decide_eq_true_eq] at ha hb
    exact hb.2 ha.1
  · rw [e] at hn
    simp [settleOffers, State.onBpt, hn]

/-- A close keeps the law of the offered requests (R31). -/
theorem close_offersLaw (before s : State) (h : s.bpt.offers.Nodup) : OffersLaw (close before s) := by
  obtain ⟨q, hq⟩ := postChanged_spec before stateWords (driveInt s)
  unfold close
  rw [hq]
  exact settleOffers_law _ h

end Sys2Proof.Machine
end

