-- ==== Sys2Proof/Laws/Receive.lean ====
section
/-! SUPPORT. How the receiver delimits frames: the first byte, the bytes read on, and the frame ended short. -/

namespace Sys2Proof.Machine

/-- What the first byte of a frame ends: a run of stray bytes, and a frame still being read, which is counted (R89). -/
theorem endShort_eq (l : Link) :
    endShort l =
      { l with
        incoming := none, strayBytes := 0
        crcErrors := if l.incoming = none then l.crcErrors else saturatingInc l.crcErrors } := by
  cases h : l.incoming <;> simp [endShort, h]

/-- A valid frame between frames only counts for its period, or for the next at the instant of a boundary (R100, R102). -/
theorem countFrame_between {s : State} (h : s.link.incoming = none) :
    countFrame s = s.onLink fun _ => s.frameCounted := by
  cases hc : s.link.periodClock with
  | none => simp [countFrame, markPeriod, boundaryDue, reached, State.frameCounted, State.onLink, endShort, h, hc]
  | some n =>
    by_cases hn : 1000 * s.csu.timing.heartbeatMs ≤ n <;>
      simp [countFrame, markPeriod, boundaryDue, reached, State.frameCounted, State.onLink, endShort, h, hc, hn]

/-- A frame that counts at the instant of a boundary leaves the mark of the period that ends there as it was (R102). -/
theorem countFrame_atBoundary {s : State} (h : boundaryDue s = true) :
    (countFrame s).link.frameInPeriod = s.link.frameInPeriod ∧ (countFrame s).link.frameAtBoundary = true := by
  cases hi : s.link.incoming <;> simp [countFrame, markPeriod, h, endShort, hi]

/-- A frame that counts before the boundary leaves the mark of the next period as it was (R100). -/
theorem countFrame_inPeriod {s : State} (h : boundaryDue s = false) :
    (countFrame s).link.frameInPeriod = true ∧ (countFrame s).link.frameAtBoundary = s.link.frameAtBoundary := by
  cases hi : s.link.incoming <;> simp [countFrame, markPeriod, h, endShort, hi]

/-- An invalid frame between frames is counted and changes nothing else (R90). -/
theorem dropInvalid_between {s : State} (h : s.link.incoming = none) :
    dropInvalid s = s.onLink fun l => { l with crcErrors := saturatingInc l.crcErrors, strayBytes := 0 } := by
  simp [dropInvalid, State.onLink, endShort, h]

/-- FRAME high in both clock periods begins a frame (R78, R89). -/
theorem takeByte_first {v : Byte} {s : State} (h : checksFrames s.link = true) :
    takeByte ⟨v, true, true⟩ s = readOn [v] (s.onLink endShort) := by
  simp [takeByte, h, byteKind]

/-- Any other byte belongs to the frame being read (R89). -/
theorem takeByte_next {v : Byte} {f g : Bool} {p : List Byte} {s : State} (h : checksFrames s.link = true)
    (hi : s.link.incoming = some p) (hk : f = false ∨ g = false) :
    takeByte ⟨v, f, g⟩ s = readOn (p ++ [v]) s := by
  have hf : byteKind v f g ≠ .frameFirst := by
    unfold byteKind
    rcases hk with rfl | rfl <;> (try cases f) <;> (try cases g) <;> simp <;> (repeat' split) <;> simp
  simp [takeByte, h, hi, hf]

/-- A frame whose length is not complete is read on (R89). -/
theorem readOn_part {l : List Byte} {s : State} (h : lengthOf l ≠ some l.length) :
    readOn l s = s.onLink fun x => { x with incoming := some l } := by
  simp [readOn, h]

/-- A frame whose length is complete is judged (R89). -/
theorem readOn_whole {l : List Byte} {s : State} (h : lengthOf l = some l.length) :
    readOn l s = judgeFrame l (s.onLink fun x => { x with incoming := none }) := by
  simp [readOn, h]

/-- Bytes in two parts are taken one part after the other. -/
theorem takeAll_append (a b : List CableByte) (s : State) : takeAll (a ++ b) s = takeAll b (takeAll a s) := by
  induction a generalizing s with
  | nil => rfl
  | cons x a ih => exact ih _

/-- The bytes of a frame behind its first, none of which completes it, are all read on (R89). -/
theorem takeAll_part (bs p : List Byte) (s : State) (h : checksFrames s.link = true) (hi : s.link.incoming = some p)
    (hn : ∀ n, n < bs.length → lengthOf (p ++ bs.take (n + 1)) ≠ some (p.length + (n + 1))) :
    takeAll (bs.map fun x => ⟨x, false, false⟩) s = s.onLink fun l => { l with incoming := some (p ++ bs) } := by
  induction bs generalizing p s with
  | nil => simp [takeAll, State.onLink, ← hi]
  | cons b bs ih =>
    have h1 := hn 0 (by simp)
    simp only [List.map_cons, takeAll]
    rw [takeByte_next h hi (.inl rfl), readOn_part (by simpa using h1)]
    rw [ih (p ++ [b])]
    · simp [State.onLink]
    · simpa [checksFrames] using h
    · rfl
    · intro n hlt
      have h2 := hn (n + 1) (by simpa using hlt)
      have hl : (p ++ [b]).length + (n + 1) = p.length + (n + 1 + 1) := by simp; omega
      rw [hl]
      simpa using h2

end Sys2Proof.Machine
end

