-- ==== Sys2Proof/Laws/Sparse.lean ====
section
/-! SUPPORT. The sparse tables: reading after writing, and the canonical form kept by every write. -/

namespace Sys2Proof.Machine

variable {α : Type} [DecidableEq α]

omit [DecidableEq α] in
theorem sparseAbove_iff (k : Nat) (t : List (Nat × α)) :
    sparseAbove k t = true ↔ ∀ e ∈ t, k < e.1 := by
  simp [sparseAbove]

theorem sparseWf_cons (d : α) (k : Nat) (v : α) (t : List (Nat × α)) :
    sparseWf d ((k, v) :: t) = true ↔ v ≠ d ∧ (∀ e ∈ t, k < e.1) ∧ sparseWf d t = true := by
  simp [sparseWf, sparseAbove_iff, and_assoc]

omit [DecidableEq α] in
/-- A key below every listed key holds the default. -/
theorem sparseGet_of_below (d : α) (k : Nat) (t : List (Nat × α)) (h : ∀ e ∈ t, k < e.1) :
    sparseGet d k t = d := by
  cases t with
  | nil => rfl
  | cons e t =>
    obtain ⟨k', v⟩ := e
    have := h (k', v) (by simp)
    simp only at this
    simp [sparseGet, this, Nat.ne_of_gt this]

/-- The keys of a table after a write are its own keys and the written one. -/
theorem mem_sparseSet (d : α) (k : Nat) (v : α) (t : List (Nat × α)) :
    ∀ e ∈ sparseSet d k v t, e = (k, v) ∨ e ∈ t := by
  induction t with
  | nil =>
    intro e he
    simp only [sparseSet] at he
    split at he <;> simp_all
  | cons e' t ih =>
    obtain ⟨k', v'⟩ := e'
    intro e he
    simp only [sparseSet] at he
    split at he
    · split at he <;> simp_all
    · split at he
      · split at he
        · exact .inr (by simp [he])
        · simp only [List.mem_cons] at he ⊢
          tauto
      · simp only [List.mem_cons] at he ⊢
        rcases he with rfl | he
        · exact .inr (.inl rfl)
        · exact (ih e he).imp id .inr

/-- A write keeps the canonical form. -/
theorem sparseSet_wf (d : α) (k : Nat) (v : α) (t : List (Nat × α)) (h : sparseWf d t = true) :
    sparseWf d (sparseSet d k v t) = true := by
  induction t with
  | nil =>
    simp only [sparseSet]
    split
    · rfl
    · simp_all [sparseWf, sparseAbove]
  | cons e t ih =>
    obtain ⟨k', v'⟩ := e
    obtain ⟨hv, hk, ht⟩ := (sparseWf_cons d k' v' t).1 h
    simp only [sparseSet]
    split
    · split
      · exact h
      · rename_i hlt hne
        refine (sparseWf_cons ..).2 ⟨hne, ?_, h⟩
        intro e he
        rcases List.mem_cons.1 he with rfl | he
        · exact hlt
        · exact hlt.trans (hk e he)
    · split
      · split
        · exact ht
        · have he : k = k' := by assumption
          subst he
          exact (sparseWf_cons ..).2 ⟨by assumption, hk, ht⟩
      · refine (sparseWf_cons ..).2 ⟨hv, ?_, ih ht⟩
        intro e he
        rcases mem_sparseSet d k v t e he with rfl | he
        · simp only; omega
        · exact hk e he

/-- Reading the key just written gives the value written. -/
theorem sparseGet_set_same (d : α) (k : Nat) (v : α) (t : List (Nat × α)) (h : sparseWf d t = true) :
    sparseGet d k (sparseSet d k v t) = v := by
  induction t with
  | nil =>
    simp only [sparseSet]
    split <;> simp_all [sparseGet]
  | cons e t ih =>
    obtain ⟨k', v'⟩ := e
    obtain ⟨_, hk, ht⟩ := (sparseWf_cons d k' v' t).1 h
    simp only [sparseSet]
    split
    · rename_i hlt
      split
      · rename_i hv
        subst hv
        simp [sparseGet, hlt, Nat.ne_of_gt hlt]
      · simp [sparseGet]
    · split
      · split
        · rename_i he hv
          subst he hv
          exact sparseGet_of_below v k t hk
        · simp [sparseGet]
      · rename_i h1 h2
        have h3 : k' ≠ k := fun h => h2 h.symm
        simp [sparseGet, h1, h3, ih ht]

/-- A write leaves every other key as it was. -/
theorem sparseGet_set_other (d : α) (k b : Nat) (v : α) (t : List (Nat × α)) (h : sparseWf d t = true)
    (hb : b ≠ k) : sparseGet d b (sparseSet d k v t) = sparseGet d b t := by
  have hkb : k ≠ b := fun h => hb h.symm
  induction t with
  | nil =>
    simp only [sparseSet]
    split
    · rfl
    · simp [sparseGet, hkb]
  | cons e t ih =>
    obtain ⟨k', v'⟩ := e
    obtain ⟨_, hk, ht⟩ := (sparseWf_cons d k' v' t).1 h
    simp only [sparseSet]
    split
    · rename_i hlt
      split
      · rfl
      · by_cases hbk : b < k
        · have h1 : b < k' := hbk.trans hlt
          simp [sparseGet, hkb, hbk, h1, Nat.ne_of_gt h1]
        · simp [sparseGet, hkb, hbk]
    · split
      · rename_i he
        subst he
        by_cases hbk : b < k
        · have h0 : sparseGet d b t = d := sparseGet_of_below d b t fun e he => hbk.trans (hk e he)
          split <;> simp [sparseGet, hkb, hbk, h0]
        · split <;> simp [sparseGet, hkb, hbk]
      · simp only [sparseGet]
        split
        · rfl
        · split
          · rfl
          · exact ih ht

/-! ## The SSRAM -/

theorem memWrite_wf (m : Memory) (a : Addr) (w : MWord) (h : m.wf = true) : (memWrite m a w).wf = true :=
  sparseSet_wf _ _ _ _ h

theorem memDrive_wf (m : Memory) (a : Access) (h : m.wf = true) : (memDrive m a).wf = true :=
  memWrite_wf _ _ _ h

theorem memRead_write_same (m : Memory) (a : Addr) (w : MWord) (h : m.wf = true) :
    memRead (memWrite m a w) a = w :=
  sparseGet_set_same _ _ _ _ h

theorem memRead_write_other (m : Memory) (a b : Addr) (w : MWord) (h : m.wf = true) (hb : b ≠ a) :
    memRead (memWrite m a w) b = memRead m b :=
  sparseGet_set_other _ _ _ _ _ h fun e => hb (BitVec.eq_of_toNat_eq e)

/-! ## The Record Tag Store -/

/-- The tag just set reads as set. -/
theorem tagAt_setTag_same (r : Rts) (i : Nat) (t : Tag) (h : sparseWf (⟨.clean, true⟩ : Tag) r.tags = true) :
    tagAt (setTag i t r) i = t :=
  sparseGet_set_same _ _ _ _ h

/-- Setting a tag leaves every other tag as it was. -/
theorem tagAt_setTag_other (r : Rts) (i j : Nat) (t : Tag)
    (h : sparseWf (⟨.clean, true⟩ : Tag) r.tags = true) (hj : j ≠ i) : tagAt (setTag i t r) j = tagAt r j :=
  sparseGet_set_other _ _ _ _ _ h hj

theorem setTag_wf (r : Rts) (i : Nat) (t : Tag) (h : sparseWf (⟨.clean, true⟩ : Tag) r.tags = true) :
    sparseWf (⟨.clean, true⟩ : Tag) (setTag i t r).tags = true :=
  sparseSet_wf _ _ _ _ h

end Sys2Proof.Machine
end

