-- ==== Sys2Proof/Laws/Roles.lean ====
section
/-! SUPPORT. What the emptyings, the clearing of replication and the role changes do, said once each. -/

namespace Sys2Proof.Machine

/-- A window that enters DESYNC: nothing changes but its journal state and the pending set (R73). -/
theorem enterDesync_spec (k : Slot) (s : State) :
    ∃ p, enterDesync k s =
      { s with
        journals := { s.journals with states := s.journals.states.set k ((s.journals.states[k]).map fun _ => .desync) }
        csu := { s.csu with pendingSet := p } } := by
  unfold enterDesync
  by_cases h : queuesWrites s.journals.states[k] = true
  · refine ⟨s.csu.pendingSet ||| Notice.journalDesync.mask, ?_⟩
    rw [if_pos h]
    rcases hx : s.journals.states[k] with _ | x
    · rw [hx] at h; cases h
    · simp [setJournalState, raise, State.onJournals, State.onCsu]
  · refine ⟨s.csu.pendingSet, ?_⟩
    rw [if_neg h]
    have hx : (s.journals.states[k]).map (fun _ => JournalState.desync) = s.journals.states[k] := by
      rcases hx : s.journals.states[k] with _ | x
      · rfl
      · rw [hx] at h
        cases x <;> simp [queuesWrites] at h ⊢
    rw [hx]
    have hs : s.journals.states.set k s.journals.states[k] = s.journals.states := by
      apply Vector.ext
      intro i hi
      rw [Vector.getElem_set]
      split
      · rename_i h'; subst h'; rfl
      · rfl
    rw [hs]

/-- The desync of a list of slots changes only their journal states and the pending set (R73). -/
theorem desyncSlots_spec (l : List Slot) (s : State) :
    ∃ v p, desyncSlots l s =
        { s with
          journals := { s.journals with states := v }
          csu := { s.csu with pendingSet := p } } ∧
      ∀ k : Slot, v[k] = if k ∈ l then (s.journals.states[k]).map fun _ => .desync else s.journals.states[k] := by
  induction l generalizing s with
  | nil => exact ⟨s.journals.states, s.csu.pendingSet, rfl, fun k => by simp⟩
  | cons j l ih =>
    obtain ⟨p, hp⟩ := enterDesync_spec j s
    obtain ⟨v, q, hv, hk⟩ := ih (enterDesync j s)
    refine ⟨v, q, ?_, ?_⟩
    · simp only [desyncSlots]
      rw [hv, hp]
    · intro k
      rw [hk k, hp]
      by_cases hj : k = j
      · subst hj
        by_cases hl : k ∈ l <;> simp [hl, Function.comp_def]
      · have hv' : ¬ (j.val = k.val) := fun h => hj (Fin.ext h.symm)
        simp [hj, hv']

/-- Every slot is in the list of slots. -/
theorem mem_allSlots (k : Slot) : k ∈ allSlots := by
  revert k
  decide

/-- The emptying of the Journal Queue: the queue is empty, every journal window is DESYNC, and nothing else changes
but the pending set (R69, R70, R73). -/
theorem emptyJournals_spec (s : State) :
    ∃ v p, emptyJournals s =
        { s with journals := { queue := [], states := v }, csu := { s.csu with pendingSet := p } } ∧
      ∀ k : Slot, v[k] = (s.journals.states[k]).map fun _ => .desync := by
  obtain ⟨v, p, h, hk⟩ := desyncSlots_spec allSlots (s.onJournals fun j => { j with queue := [] })
  refine ⟨v, p, h, fun k => ?_⟩
  rw [hk k, if_pos (mem_allSlots k)]
  rfl

/-- What promotion, demotion, release and STOP clear: the tags, the Dispatcher, the Journal Queue and the passes
(R48, R70, R128, R131). -/
theorem clearReplication_spec (s : State) :
    ∃ v p, clearReplication s =
        { s with
          rts := { tags := [], pointers := Vector.replicate 8 0, outstanding := 0 }
          journals := { queue := [], states := v }
          disp :=
            { s.disp with
              readouts := Vector.replicate 4 none, inFlight := [], syncBeginArm := false, syncDoneArm := false,
              handoverArm := false, ackTimer := none
              seqClosed := s.disp.seqClosed || (!s.disp.inFlight.isEmpty && decide (s.link.state = .up)) }
          pass :=
            { s.pass with
              phase := .none, syncPos := 0, syncClock := 0, awaited := .none, refreshing := false, refreshPos := 0,
              refreshClock := 0 }
          csu := { s.csu with pendingSet := p } } ∧
      ∀ k : Slot, v[k] = (s.journals.states[k]).map fun _ => .desync := by
  obtain ⟨v, p, h, hk⟩ := emptyJournals_spec (clearDispatcher (bulkClear s))
  refine ⟨v, p, ?_, hk⟩
  unfold clearReplication emptyCleared
  rw [h]
  rfl

/-- A change of role: CLAIM_OUT and the dual-claim timer follow it, ROLE_CHANGED is raised, and status word 0 is posted
as it then stands (R134, R138, R152, R166). -/
theorem setRole_spec (r : Role) (s : State) :
    setRole r s =
      { s with
        rc :=
          { s.rc with
            role := r, claimOut := claims r, dual := dualAfter (claims r && s.rc.claimIn) s.rc.dual }
        csu :=
          { s.csu with
            pendingSet := s.csu.pendingSet ||| Notice.roleChanged.mask
            postQueue := postInto 0 (statusWord (setRole r s) 0) s.csu.postQueue } } := rfl

/-- One event on one tag: that tag moves by the table, and nothing else changes (R37). -/
theorem tagEvent_spec (e : TagEvent) (i : Nat) (s : State) :
    tagEvent e i s = { s with rts := setTag i (tagAfter e (tagAt s.rts i)) s.rts } := rfl

/-- An event on a record: on its tag where the slot is of kind RECORD, and nothing otherwise (R12, R37). -/
theorem recordEvent_spec (e : TagEvent) (k : Slot) (i : Nat) (s : State) :
    (∀ w, recordAt s.windows k = some w → recordEvent e k i s = tagEvent e (w.tagBase + i) s) ∧
    (recordAt s.windows k = none → recordEvent e k i s = s) := by
  unfold recordEvent
  exact ⟨fun w h => by rw [h], fun h => by rw [h]⟩

/-- The release of a held read changes the hold alone, and only where the read was covered before and is not after (R29). -/
theorem freeRead_spec (b s : State) :
    ∃ h, freeRead b s = { s with bpt := { s.bpt with held := h } } ∧
      (b.apply.queue = [] → h = s.bpt.held) ∧ ((∀ a, s.bpt.held ≠ .read a) → h = s.bpt.held) ∧
      ∀ a, s.bpt.held = .read a →
        h = if covered b a = true ∧ covered s a = false then .port ⟨false, a, 0, 0, 0⟩ else .read a := by
  unfold freeRead
  rcases hh : s.bpt.held with _ | a | ⟨a, n⟩ | a
  · exact ⟨.none, by simp [← hh], by simp, by simp, by simp⟩
  · by_cases hc : covered b a = true ∧ covered s a = false
    · refine ⟨.port ⟨false, a, 0, 0, 0⟩, by simp [hc, State.onBpt], ?_, by simp, ?_⟩
      · intro hq
        simp [covered, hq] at hc
      · rintro x ⟨⟩
        simp [hc]
    · refine ⟨.read a, ?_, by simp, by simp, ?_⟩
      · have : (covered b a && !covered s a) = false := by
          rcases h1 : covered b a <;> rcases h2 : covered s a <;> simp_all
        simp [this, ← hh]
      · rintro x ⟨⟩
        simp [hc]
  · exact ⟨.stall a n, by simp [← hh], by simp, by simp, by simp⟩
  · exact ⟨.port a, by simp [← hh], by simp, by simp, by simp⟩

/-- The emptying of the apply queue: A stands, a held read is released, and the seen flag may be set (R29, R83, R114). -/
theorem emptyApply_spec (s : State) :
    ∃ h b, emptyApply s =
        { s with
          bpt := { s.bpt with held := h }
          apply := { s.apply with queue := [], written := 0, merged := none }
          link := { s.link with seen := b } } ∧
      (s.apply.queue = [] → h = s.bpt.held) ∧ ((∀ a, s.bpt.held ≠ .read a) → h = s.bpt.held) ∧
      ∀ a, s.bpt.held = .read a → h = if covered s a = true then .port ⟨false, a, 0, 0, 0⟩ else .read a := by
  obtain ⟨h, hf, h1, h2, h3⟩ :=
    freeRead_spec s (s.onApply fun a => { a with queue := [], written := 0, merged := none })
  have h4 : ∀ a, s.bpt.held = .read a → h = if covered s a = true then .port ⟨false, a, 0, 0, 0⟩ else .read a := by
    intro a ha
    simpa [covered] using h3 a ha
  unfold emptyApply settleSeen
  rw [hf]
  split
  · exact ⟨h, true, rfl, h1, h2, h4⟩
  · exact ⟨h, s.link.seen, rfl, h1, h2, h4⟩

/-- Demotion changes nothing of the windows, the memory, the link but the seen flag, and the timing; it leaves STANDBY
with the sync state given, both lists empty and the tags clear (R138). -/
theorem demote_spec (x : SyncState) (s : State) :
    (demote x s).rc =
      { s.rc with
        role := .standby, closing := false, handoff := none, claimOut := false, dual := .stopped, sync := x } ∧
    (demote x s).rts = { tags := [], pointers := Vector.replicate 8 0, outstanding := 0 } ∧
    (demote x s).disp.inFlight = [] ∧ (demote x s).journals.queue = [] ∧
    (demote x s).apply = { s.apply with queue := [], written := 0, merged := none } ∧
    (demote x s).pass =
      { s.pass with
        phase := .none, syncPos := 0, syncClock := 0, awaited := .none, refreshing := false, refreshPos := 0,
        refreshClock := 0 } ∧
    (demote x s).windows = s.windows ∧ (demote x s).mem = s.mem ∧
    (s.apply.queue = [] → (demote x s).bpt = s.bpt) ∧
    (demote x s).csu.timing = s.csu.timing ∧ (demote x s).csu.running = s.csu.running ∧
    (demote x s).link.state = s.link.state ∧ (demote x s).link.view = s.link.view ∧
    (demote x s).link.peer = s.link.peer := by
  obtain ⟨v, p, h, -⟩ := clearReplication_spec (setRole .standby (leaveHandoff s))
  have hr := setRole_spec .standby (leaveHandoff s)
  generalize postInto 0 (statusWord (setRole .standby (leaveHandoff s)) 0) (leaveHandoff s).csu.postQueue = q at hr
  obtain ⟨x', b, he, h1, -⟩ := emptyApply_spec (clearReplication (setRole .standby (leaveHandoff s)))
  unfold demote
  rw [he]
  rw [h, hr] at h1 ⊢
  exact ⟨rfl, rfl, rfl, rfl, rfl, rfl, rfl, rfl, fun hq => by rw [h1 hq]; rfl, rfl, rfl, rfl, rfl, rfl⟩

/-- A running SWITCHOVER ends with the result given; nothing changes while none runs (R148 to R151). -/
theorem endSwitchover_spec (r : ResultCode) (s : State) :
    (s.csu.running = some .switchover → endSwitchover r s = completeWith 0x12 r 0 s) ∧
    (s.csu.running ≠ some .switchover → endSwitchover r s = s) := by
  unfold endSwitchover
  exact ⟨fun h => by rw [if_pos h]; rfl, fun h => by rw [if_neg h]⟩

end Sys2Proof.Machine
end

