-- ==== Sys2Proof/Laws/Sending.lean ====
section
/-! SUPPORT. What becomes of the frame being sent: at a go-back, at a frame boundary, and at the
move to INCOMPATIBLE. -/

namespace Sys2Proof.Machine

/-- A go-back changes the frame being sent alone, and only where the frame's entry is removed: then the frame has ended, or
ends with its CRC inverted (R59). -/
theorem cutSending_spec (l : List InFlight) (s : State) :
    ∃ x n, cutSending l s = { s with link := { s.link with sending := x }, draws := n } ∧
      ((∀ f c, s.link.sending = some ⟨.sequenced f, c⟩ → ∀ y ∈ l, y.seq ≠ f.seq) → x = s.link.sending) ∧
      ∀ f c, s.link.sending = some ⟨.sequenced f, c⟩ → (∃ y ∈ l, y.seq = f.seq) →
        x = none ∨ x = some ⟨.sequenced f, true⟩ := by
  unfold cutSending
  split
  · rename_i f c h
    split
    · rename_i ha
      refine ⟨_, s.draws + 1, rfl, ?_, ?_⟩
      · intro hn
        simp only [List.any_eq_true, decide_eq_true_eq] at ha
        obtain ⟨y, hy, he⟩ := ha
        exact absurd he (hn f c h y hy)
      · intro g d hg _
        rw [h] at hg
        cases hg
        cases Config.lastByteLeft s.draws <;> simp
    · rename_i ha
      refine ⟨s.link.sending, s.draws, rfl, fun _ => rfl, ?_⟩
      rintro g d hg ⟨y, hy, he⟩
      rw [h] at hg
      cases hg
      exact absurd (List.any_eq_true.mpr ⟨y, hy, decide_eq_true he⟩) ha
  · rename_i hn
    exact ⟨s.link.sending, s.draws, rfl, fun _ => rfl, fun f c h _ => absurd h (hn f c)⟩

/-- The previous frame has ended at a frame boundary, but for a HELLO that HELLO_TRANSMITTED ends (R56, R85). -/
theorem endFrame_spec (l : Link) :
    endFrame l = { l with sending := (endFrame l).sending } ∧
    ((endFrame l).sending = none ∨ (l.state = .hello ∧ sendingSeenHello l = true ∧ endFrame l = l)) := by
  unfold endFrame
  split
  · exact ⟨rfl, .inr ⟨by tauto, by tauto, rfl⟩⟩
  · exact ⟨rfl, .inl rfl⟩

/-- The move to INCOMPATIBLE leaves no frame being sent, changes nothing else of the link but the wait of the next HELLO, and
raises its notice (R84). -/
theorem goIncompatible_spec (s : State) :
    (goIncompatible s).link = { s.link with state := .incompatible, helloWaiting := false, sending := none } ∧
    goIncompatible s = { s with link := (goIncompatible s).link, csu := (goIncompatible s).csu } ∧
    (goIncompatible s).csu.pendingSet = s.csu.pendingSet ||| Notice.incompatible.mask :=
  ⟨rfl, rfl, rfl⟩

/-- While no frame is being sent, the cable carries the byte between frames alone (R78, R84). -/
theorem cableFrame_of_none {l : Link} (h : l.sending = none) : cableFrame l = [] := by simp [cableFrame, h]

end Sys2Proof.Machine
end

