-- ==== Sys2Proof/Tests/Slice0.lean ====
section
/-! SUPPORT. The smoke test of the well-formedness checks, tests from the manual's worked examples and tables, one
small step for the commands, and a witness for the hypotheses of every statement. -/

namespace Sys2Proof.Tests

open Sys2Proof Sys2Proof.Machine

-- One test at a time: those that the kernel evaluates wait for every declaration before them, each in a thread of its own.
set_option Elab.async false

/-! ## Well-formed commands, and one refused for each check -/

theorem test_wf_record_frame : (Instr.sequencedFrameReceived ⟨0, .record 0 0 [1, 2, 3, 4]⟩).wf = true := by decide
theorem test_wf_refuses_page_write_as_ordinary : (Instr.ordinaryAccess ⟨true, 524160, 0, 0, 255⟩).wf = false := by decide
theorem test_wf_refuses_command_as_plain_write : (Instr.controlPageWrite 0 0 0 1).wf = false := by decide
theorem test_wf_refuses_liveness_as_plain_write : (Instr.controlPageWrite 8 0 0 255).wf = false := by decide
theorem test_wf_refuses_record_write_of_page : (Instr.recordWindowWrite 524224 0 0 255).wf = false := by decide
theorem test_wf_refuses_journal_write_of_page : (Instr.journalWindowWrite 524160 0 0 255).wf = false := by decide
theorem test_wf_refuses_window_read_of_page : (Instr.windowRead 524287).wf = false := by decide
theorem test_wf_refuses_empty_liveness_write : (Instr.livenessWrite 0 0 0).wf = false := by decide
theorem test_wf_refuses_empty_enable_write : (Instr.noticeEnable 0 0 0).wf = false := by decide
theorem test_wf_refuses_empty_clear_write : (Instr.noticeClear 0 0 0).wf = false := by decide
theorem test_wf_refuses_known_code_as_unknown : (Instr.unknownCommand 0x10 0 0 0).wf = false := by decide
theorem test_wf_refuses_five_words : (Instr.sequencedFrameReceived ⟨0, .record 0 0 [1, 2, 3, 4, 5]⟩).wf = false := by
  decide
theorem test_wf_refuses_no_bytes : (Instr.invalidFrame [] true).wf = false := by decide


/-! ## The manual's worked examples and tables -/

/-- The table of spec section 1.8.1. -/
def plan : Vector Window 8 :=
  #v[.record ⟨0, 8, 40000, 3, 0xC0, 0, true, 0⟩, .record ⟨320000, 16, 8000, 2, 0xF000, 0, true, 40000⟩,
    .record ⟨448000, 4, 1000, 1, 8, 0, true, 48000⟩, .journal ⟨452000, 2048, 2⟩, .none, .none, .none, .none]

/-- Section 1.8.1: the total record count and N_ref. -/
theorem test_plan_totals : totalRecords plan = 49000 ∧ refreshTotal plan = 49000 := by decide
/-- Section 1.8.1: the tag bases. -/
theorem test_plan_bases : tagBaseOf plan 1 = 40000 ∧ tagBaseOf plan 2 = 48000 := by decide
/-- Section 1.8.2: an address of slot 0. -/
theorem test_map_structural :
    placeOf plan 123457 = .record 0 ⟨0, 8, 40000, 3, 0xC0, 0, true, 0⟩ 15432 1 := by decide
/-- Section 1.8.2: an address of slot 1, at a volatile position. -/
theorem test_map_volatile :
    placeOf plan 327775 = .record 1 ⟨320000, 16, 8000, 2, 0xF000, 0, true, 40000⟩ 485 15 ∧
    RecordWindow.isVolatile ⟨320000, 16, 8000, 2, 0xF000, 0, true, 40000⟩ 15 = true := by decide
/-- Section 1.8.2: a journal offset and an ordinary address. -/
theorem test_map_journal : placeOf plan 453001 = .journal 3 ⟨452000, 2048, 2⟩ 1001 ∧ placeOf plan 460000 = .outside := by
  decide
/-- Section 1.8.3, step 5: the extent passes the status page. -/
theorem test_refusal_extent :
    checkDefine .init plan ⟨4, 1, 16, 0, 0, 0, false, 454048, 5000, 0⟩ = .error .badArgument := by rfl
/-- Section 1.8.3, step 6: too many records. -/
theorem test_refusal_capacity :
    checkDefine .init plan ⟨4, 1, 4, 0, 0, 0, false, 454048, 17000, 0⟩ = .error .capacity := by decide +kernel
/-- Section 1.8.3, step 7: words shared with slot 3. -/
theorem test_refusal_overlap :
    checkDefine .init plan ⟨4, 2, 0, 0, 0, 0, false, 453000, 0, 1024⟩ = .error .overlap := by rfl
/-- Section 1.8.3, step 8: a base in the status page. -/
theorem test_refusal_page :
    checkDefine .init plan ⟨4, 1, 4, 0, 0, 0, false, 524180, 1, 0⟩ = .error .overlap := by rfl
/-- Section 1.8.3, step 9: the table is full to the record. -/
theorem test_full_table :
    checkDefine .init plan ⟨4, 1, 4, 0, 0, 0, false, 454048, 16536, 0⟩ =
      .ok (4, .record ⟨454048, 4, 16536, 0, 0, 0, false, 0⟩) := by decide +kernel
/-- Section 1.8.4: slot 1 cleared, and the tag base of slot 2 recomputed. -/
theorem test_clear_slot :
    (replaceSlot plan 1 .none)[2] = .record ⟨448000, 4, 1000, 1, 8, 0, true, 40000⟩ := by decide
/-- Section 1.8.1, slot 0 as operand words (R175). -/
theorem test_define_operands :
    (defineFields 0x0103_00C0_0008_0100 0x00009C40_00000000 0).window = .record ⟨0, 8, 40000, 3, 0xC0, 0, true, 0⟩ := by
  decide

/-- Section 7.8.1: the offsets of steps 39,999, 40,000 and 48,999. -/
theorem test_pacing :
    visitOffset 49000 2000000 39999 = 1639959 ∧ visitOffset 49000 2000000 40000 = 1640000 ∧
    visitOffset 49000 2000000 48999 = 1999960 := by decide
/-- Section 7.8.3: the last visit of a PACED sync over 60 s. -/
theorem test_paced_sync : visitOffset 49000 60000000 48999 = 59998776 := by decide
/-- Section 7.8.2: the byte time at DIV 1 and the length of a RECORD frame of 16 words. -/
theorem test_byte_time : byteTimeNs 1 = 32 ∧ lengthOf [5, 0, 0, 0, 0, 0, 16, 0] = some 140 := by decide

/-- Section 3.11.1, steps 1 to 9: the life of one record. -/
theorem test_life_of_a_record :
    (tagAfter .acknowledgement (tagAfter .structuralCapture (tagAfter .readoutRestart (tagAfter .structuralCapture
      (tagAfter .volatileCapture (tagAfter .selection (tagAfter .volatileCapture
        (tagAfter .structuralCapture ⟨.clean, true⟩)))))))).state = .dirty := by decide
/-- Section 3.11.1, steps 12 and 13. -/
theorem test_refresh_of_stale : (tagAfter .refreshVisit (tagAfter .volatileCapture ⟨.clean, true⟩)).state = .dirty := by
  decide

/-- Section 10.1.3: the header of record 17 of slot 2 as sequence number 413. -/
theorem test_record_header :
    (seqBytes ⟨413, .record 2 17 [0, 0, 0, 0]⟩).take 8 = [0x05, 0x02, 0x9D, 0x01, 0x11, 0x00, 0x04, 0x00] := by decide
/-- R91: the CRC of the nine digits with the parameters of the rule. The check value is a known one of this CRC, not the
manual's. -/
theorem test_crc_check_value : crc [0x31, 0x32, 0x33, 0x34, 0x35, 0x36, 0x37, 0x38, 0x39] = 0xCBF43926 := by
  decide +kernel
/-- R180: a syndrome of 3, 33 and 71 names data bit 0, 26 and 63. -/
theorem test_code_positions : dataBitAt 3 = some 0 ∧ dataBitAt 33 = some 26 ∧ dataBitAt 71 = some 63 := by decide
/-- R34: a word with data bit 5 flipped reads CORRECTED. -/
theorem test_corrected_word : classify ⟨0x20, checkBits 0⟩ = (.corrected, 0) := by decide +kernel
/-- R179: the example under the table of notices. -/
theorem test_clear_role_changed : Notice.roleChanged.mask = 0x0002 := by decide
/-- R164: values outside their ranges move to the nearer edge. -/
theorem test_timing_clamped :
    timingOf 0x0005_0010_01_0002_09 0x0000_0000_00_00_00_00 =
      some (⟨7, 10, 2, 100, 10, false, true, .demand 1⟩, true) := by decide
/-- R168, R178: status words 0 and 2 after power-on reset of unit B. -/
theorem test_reset_words : (statusWord (powerOn .b false none [] 0 []) 0, statusWord (powerOn .b false none [] 0 []) 2) =
    (0x10000, 0x8000000000000000) := by decide

/-! ## States for the tests -/

/-- A small table: two RECORD windows of five records and two JOURNAL windows. -/
def small : Vector Window 8 :=
  #v[.record ⟨0, 4, 5, 3, 8, 0, true, 0⟩, .record ⟨32, 4, 5, 2, 0, 1, true, 5⟩, .journal ⟨64, 8, 2⟩,
    .journal ⟨72, 4, 1⟩, .none, .none, .none, .none]

/-- The journal states of the small table, all `x`. -/
def journalsAt (x : JournalState) : Journals :=
  { queue := [], states := #v[none, none, some x, some x, none, none, none, none] }

/-- INIT with the small table. -/
def inInit : State := { State.reset with windows := small, journals := journalsAt .desync }

/-- The link UP and PAIRED with the peer `p`. -/
def linkUp (p : PeerRecord) : Link :=
  { State.reset.link with state := .up, view := .paired, peer := p, periodClock := some 0 }

/-- A STANDBY peer in sync. -/
def standbyPeer : PeerRecord := ⟨.standby, .inSync, 1, 0⟩

/-- The Role Controller in role `r` with E at 1 and BCLK running. -/
def roleIn (r : Role) : RoleController :=
  { State.reset.rc with role := r, epoch := 1, claimOut := claims r, busClock := .present }

/-- ACTIVE, paired with a STANDBY peer. -/
def active : State :=
  { inInit with link := linkUp standbyPeer, rc := roleIn .active, journals := journalsAt .inStep }

/-- STANDBY, paired with an ACTIVE peer. -/
def standby : State := { inInit with link := linkUp ⟨.active, .inSync, 1, 0⟩, rc := roleIn .standby }

/-- RELEASED, paired with an ACTIVE peer. -/
def released : State := { inInit with link := linkUp ⟨.active, .inSync, 1, 0⟩, rc := roleIn .released }

/-- HANDOFF before closing. -/
def handoff : State :=
  { active with
    rc := { roleIn .handoff with handoff := some 5, handoffMs := 100 }
    csu := { active.csu with running := some .switchover } }

/-- HANDOFF in its closing sub-state. -/
def closing : State := { handoff with rc := { roleIn .handoff with closing := true } }

/-- The link of the state changed by `f`. -/
def withLink (f : Link → Link) (s : State) : State := s.onLink f

/-- Operand words 1 and 2 in the shadow. -/
def ops (w1 w2 : DWord) (s : State) : State :=
  s.onBpt fun b => { b with shadow := (b.shadow.set 1 w1).set 2 w2 }

/-- The next state of a command. -/
def after (c : Instr) (s : State) : State :=
  match exec c s with
  | .next t => t
  | _ => s

/-- A full Journal Queue. -/
def fullQueue : List QueuedEntry := List.replicate 128 ⟨.word 2 1 0 1, false⟩

/-- ACTIVE with `n` journal entries queued. -/
def queued (n : Nat) : State :=
  { active with journals := { active.journals with queue := fullQueue.take n } }

/-! ## Single steps -/

/-- R139: START as ACTIVE takes the role, counts E up and drives CLAIM_OUT. -/
theorem test_start_active :
    ((after (.start 0 0 0) (ops 3 0 inInit)).rc.role, (after (.start 0 0 0) (ops 3 0 inInit)).rc.epoch,
      (after (.start 0 0 0) (ops 3 0 inInit)).rc.claimOut) = (.active, 1, true) := by decide +kernel
/-- R140: STOP from ACTIVE. -/
theorem test_stop : ((after (.stop 0 0 0) active).rc.role, (after (.stop 0 0 0) active).link.state) = (.init, .off) := by
  decide +kernel
/-- R22, R38: a structural write on an ACTIVE part makes the record DIRTY and reaches memory. -/
theorem test_capture :
    (tagAt (after (.recordWindowWrite 5 7 9 255) active).rts 1, memRead (after (.recordWindowWrite 5 7 9 255) active).mem 5) =
      (⟨.dirty, true⟩, ⟨7, 9⟩) := by decide +kernel
/-- R23: the same write on a STANDBY part is counted and not driven. -/
theorem test_suppressed :
    ((after (.recordWindowWrite 5 7 9 255) standby).bpt.suppressed,
      memRead (after (.recordWindowWrite 5 7 9 255) standby).mem 5) = (1, ⟨0, 0⟩) := by decide +kernel
/-- R25: a journal write is queued. -/
theorem test_journal_write :
    (after (.journalWindowWrite 65 7 9 255) active).journals.queue = [⟨.word 2 1 7 255, false⟩] := by decide +kernel
/-- R154: a RELEASE during a handoff is an overrun. -/
theorem test_release_in_handoff :
    ((after (.release 0 0 0) handoff).rc.role,
      (after (.release 0 0 0) handoff).csu.pendingSet.getLsbD Notice.commandOverrun.bit) = (.handoff, true) := by
  decide +kernel
/-- R159: an unknown code completes with UNKNOWN_COMMAND. -/
theorem test_unknown_command :
    (after (.unknownCommand 0x7F 0 0 0) active).csu.result = ⟨0x7F, .unknownCommand, 0, true⟩ := by decide +kernel
/-- R101, R141: the third silent period makes a STANDBY part ACTIVE. -/
theorem test_peer_lost :
    (after .heartbeatPeriodBoundary (withLink (fun l => { l with missCount := 2 }) standby)).rc.role = .active := by
  decide +kernel
/-- R149: a handoff that times out. -/
theorem test_handoff_timeout :
    ((after .handoffTimerExpiry handoff).rc.role, (after .handoffTimerExpiry handoff).csu.result) =
      (.active, ⟨0x12, .timeout, 0, true⟩) := by decide +kernel
/-- R167: STOP of a handoff while no DONE value waits: ABORTED stands in the queue and STOP's completion is held. -/
theorem test_result_hold :
    (after (.stop 0 0 0) { handoff with csu := { handoff.csu with postQueue := [] } }).csu.resultHold =
      some (ResultWord.word ⟨0x11, .ok, 0x12, true⟩) := by decide +kernel
/-- R167: while an earlier DONE value waits, the hold keeps STOP's completion alone (log entry 30). -/
theorem test_result_hold_replaced :
    (after (.stop 0 0 0) { handoff with csu := { handoff.csu with postQueue := [⟨2, resetWord2⟩] } }).csu.resultHold =
      some (ResultWord.word ⟨0x11, .ok, 0x12, true⟩) ∧
    pendingValue 2 (after (.stop 0 0 0)
      { handoff with csu := { handoff.csu with postQueue := [⟨2, resetWord2⟩] } }).csu.postQueue = some resetWord2 := by
  decide +kernel
/-- R26, R72: an expiry after an entry has left the queue does not make the window DESYNC. -/
theorem test_expiry_after_room :
    ((after .journalStallExpiry { queued 127 with bpt := { active.bpt with held := .stall ⟨true, 65, 7, 9, 255⟩ 16 } }).journals.states[2],
      (after .journalStallExpiry { queued 128 with bpt := { active.bpt with held := .stall ⟨true, 65, 7, 9, 255⟩ 16 } }).journals.states[2]) =
      (some .inStep, some .desync) := by decide +kernel
/-- R32: BCLK that stopped before a power-on reset still carries no posting write. -/
theorem test_no_clock_after_reset :
    ((after .statusPostingWrite (after (.powerOnReset false) (after .busClockLost active))).csu.postQueue).length = 64 := by
  decide +kernel
/-- R80, R81: a HELLO reached within the interface reset is not started before the clock runs again. -/
theorem test_no_frame_in_reset :
    (let s := withLink (fun l => { l with state := .train, aligned := true, resetTicks := some 3 }) active
     let t := after (.trainingByteReceived 0xB4 true false) s
     (t.link.state, cableIdle t.link, (after .frameTransmitStart t).link.sending,
      (after .interfaceResetEnd t).link.resetTicks)) = (.hello, none, none, none) := by decide +kernel
/-- R89, R90: an ACK in two commands, the first byte of it by itself; and one ended short by the next frame. -/
theorem test_frame_in_pieces :
    ((after (.byteBetweenFrames 3 true true) standby).link.incoming,
      (after (.invalidFrame [3, 0, 0] true) standby).link.crcErrors,
      (after (.invalidFrame [3, 0, 0] false) standby).link.crcErrors,
      (after (.byteBetweenFrames 4 true true) (after (.invalidFrame [3, 0, 0] false) standby)).link.incoming,
      (after (.byteBetweenFrames 4 true true) (after (.invalidFrame [3, 0, 0] false) standby)).link.crcErrors) =
      (some [3], 1, 0, some [4], 1) := by decide +kernel
/-- R85, R56: a frame boundary with nothing waiting leaves a HELLO with its seen flag set to HELLO_TRANSMITTED, in HELLO. -/
theorem test_seen_hello_stays :
    let hello : HelloFrame := ⟨.a, .active, .inSync, 1, 0, true, tableGeometry small⟩
    let s (x : LinkState) : State := withLink (fun l => { l with state := x, sending := some ⟨.hello hello, false⟩ }) active
    ((after .frameTransmitStart (s .hello)).link.sending, (after .frameTransmitStart (s .up)).link.sending) =
      (some ⟨.hello hello, false⟩, none) := by decide +kernel

/-- R78: FRAME is high in both clock periods of a frame's first byte and low for the others. -/
theorem test_frame_line :
    (framed (frameBytes (.ack 5))).map (fun b => (b.first, b.second)) =
      (true, true) :: List.replicate 11 (false, false) := by decide +kernel
/-- R150: a peer that becomes RELEASED in closing returns the part to ACTIVE. -/
theorem test_closing_peer_released :
    (after (.heartbeatReceived ⟨.released, .unsynced, 1, 0, 0⟩ false) closing).rc.role = .active := by decide +kernel
/-- R148: the acknowledgement of HANDOVER ends the handoff. -/
theorem test_handover_acked :
    (after (.ackReceived 1)
      { closing with
        link := { closing.link with nextSeq := 1 }
        disp := { closing.disp with inFlight := [⟨0, .control (.handover 1), none, true, none⟩] } }).rc =
      { roleIn .standby with sync := .inSync, epoch := 2 } := by decide +kernel
/-- R105: an applied record writes K last. -/
theorem test_write_order : writeOrder ⟨0, 4, 5, 3, 0, 1, true, 0⟩ = [0, 2, 3, 1] := by decide
/-- R61: a record's readout reads K first. -/
theorem test_read_order : readOrder ⟨0, 4, 5, 3, 0, 1, true, 0⟩ = [1, 0, 2, 3] := by decide

/-! ## Witnesses: states and operands that meet the hypotheses of each statement, clause by clause -/

/-- The bases of a table whose slots all carry the base R3 gives. -/
theorem bases_of (t : Vector Window 8)
    (h : (allSlots.all fun k => match recordAt t k with
      | some w => decide (w.tagBase = tagBaseOf t k)
      | none => true) = true) : BasesLaw t := by
  intro k w hw
  have hk : ∀ j : Slot, j ∈ allSlots := by decide
  have := List.all_eq_true.mp h k (hk k)
  simpa [hw] using this

theorem small_bases : BasesLaw small := bases_of _ (by decide)

theorem small_table : TableLaw small := by
  refine ⟨?_, by decide, by decide, small_bases⟩
  intro k
  fin_cases k <;> simp [small, Window.legal, Config.statusBase]

/-- The law of the pending state words, as a check that runs over them. -/
theorem posted_of (s : State)
    (h : (stateWords.all fun w => (pendingValue w s.csu.postQueue).all fun v => decide (v = statusWord s w)) = true) :
    PostedLaw s := by
  intro w hw v hv
  have := List.all_eq_true.mp h w hw
  simpa [hv] using this

theorem no_stall {s : State} (h : s.bpt.held = .none) : StallLaw s := by
  intro a n hs
  rw [h] at hs
  cases hs

theorem stands {s : State} (h : s.bpt.held = .none) : StallStands s :=
  ⟨no_stall h, by simp [stallHasRoom, h]⟩

/-- A stalled write for which no room has appeared, as a check. -/
theorem stands_of {s : State} {a : Access} {n : Nat} (h : s.bpt.held = .stall a n)
    (hs : (a.write && captures s.rc && queuesWrites (stallState s a)) = true) (hr : stallHasRoom s = false) :
    StallStands s := by
  refine ⟨?_, hr⟩
  intro b m hb
  rw [h] at hb
  injection hb with h1 h2
  subst h1
  simpa [and_assoc] using hs

theorem no_read {s : State} (h : (match s.bpt.held with | .read _ => false | _ => true) = true) : ReadLaw s := by
  intro a hs
  simp [hs] at h

theorem read_of {s : State} {a : Addr} (h : s.bpt.held = .read a) (hc : covered s a = true) : ReadLaw s := by
  intro b hb
  rw [h] at hb
  injection hb with h1
  exact h1 ▸ hc

/-- What holds of every RECORD window of a table, as a check that runs over its slots. -/
theorem records_of {t : Vector Window 8} {P : Slot → RecordWindow → Prop} [∀ k w, Decidable (P k w)]
    (h : ∀ k : Slot, ((recordAt t k).all fun w => decide (P k w)) = true) :
    ∀ (k : Slot) (w : RecordWindow), recordAt t k = some w → P k w := by
  intro k w hw
  simpa [hw] using h k

/-- Two transmitted entries in flight: record 1 of slot 0 and a journal word. -/
def flying : State :=
  { active with
    rts := { active.rts with tags := [(1, ⟨.flight, true⟩)] }
    journals := { journalsAt .inStep with queue := [⟨.word 2 1 0 255, true⟩] }
    link := { linkUp standbyPeer with nextSeq := 2 }
    disp :=
      { active.disp with
        inFlight := [⟨0, .record 0 1, some .record, true, none⟩,
          ⟨1, .journal (.word 2 1 0 255), none, true, none⟩]
        ackTimer := some 0 } }

theorem flying_flight : FlightLaw flying :=
  ⟨by unfold TagForm; decide, small_bases, by decide, by decide, by decide, by decide⟩

theorem flying_sequence : SequenceLaw flying := by
  refine ⟨by decide, by decide, ?_⟩
  intro i j hj hi _
  exact (by decide : ∀ x ∈ flying.disp.inFlight, x.transmitted = true) _ (List.getElem_mem _)

theorem flying_journal : JournalLaw flying := by unfold JournalLaw; decide

theorem role_active : RoleLaw active := by constructor <;> (try unfold ClaimLaw) <;> decide
theorem role_standby : RoleLaw standby := by constructor <;> (try unfold ClaimLaw) <;> decide
theorem role_handoff : RoleLaw handoff := by constructor <;> (try unfold ClaimLaw) <;> decide
theorem role_closing : RoleLaw closing := by constructor <;> (try unfold ClaimLaw) <;> decide
theorem role_flying : RoleLaw flying := by constructor <;> (try unfold ClaimLaw) <;> decide

theorem wit_StepRunsFront : ({ State.reset with pending := [.itemStart] } : State).pending = .itemStart :: [] := rfl
/-- The three outcomes of an idle step, and a timer, a PACED sync visit, a refresh visit and the end of a refresh pass at
their times and one tick before them. -/
theorem wit_IdleStep :
    (State.reset.pending = [] ∧ takeWaiting State.reset = none ∧ dueNow State.reset = some .statusPostingWrite) ∧
    (takeWaiting { active with bpt := { active.bpt with waiting := [⟨false, 5, 0, 0, 0⟩] } }).isSome = true ∧
    dueNow { State.reset with csu := { State.reset.csu with postQueue := [] } } = none ∧
    (let idle (n : Nat) : State :=
      { standby with csu := { standby.csu with postQueue := [] }, disp := { standby.disp with ackTimer := some n } }
     dueNow (idle 1000) = some .ackTimerExpiry ∧ dueNow (idle 999) = none) ∧
    (let quiet : Csu := { active.csu with postQueue := [], timing := { active.csu.timing with syncMode := .paced 1 } }
     let sync (n : Nat) : State :=
      { active with
        csu := quiet
        rts := { active.rts with outstanding := 1 }
        pass := { active.pass with phase := .passing, syncPos := 1, syncClock := n } }
     let refresh (i n : Nat) : State :=
      { active with
        csu := quiet
        pass := { active.pass with refreshing := true, refreshPos := i, refreshClock := n } }
     (dueNow (sync 100000) = some .syncVisit ∧ dueNow (sync 99999) = none) ∧
     (dueNow (refresh 9 1800000) = some .refreshVisit ∧ dueNow (refresh 9 1799999) = none) ∧
     dueNow (refresh 10 2000000) = some .refreshPassEnd ∧ dueNow (refresh 10 1999999) = none) := by decide +kernel
theorem wit_OrdinaryForwarded :
    BusFree active ∧ regionOf active.windows 100 = .ordinary ∧ regionOf active.windows 524159 = .ordinary ∧
    Config.statusBase ≤ (524160 : Addr).toNat ∧ Config.statusBase ≤ (524287 : Addr).toNat ∧ MemoryLaw active := by
  unfold BusFree BusOpen MemoryLaw; decide
theorem wit_ControlPageMerge :
    BusFree active ∧ ((1 : BitVec 6) ≠ 0 ∧ (1 : BitVec 6) ≠ 8 ∧ (1 : BitVec 6) ≠ 9 ∧ (1 : BitVec 6) ≠ 10) ∧
    ((63 : BitVec 6) ≠ 0 ∧ (63 : BitVec 6) ≠ 8 ∧ (63 : BitVec 6) ≠ 9 ∧ (63 : BitVec 6) ≠ 10) := by
  unfold BusFree BusOpen; decide
theorem wit_ControlEventsDelivered : BusFree standby ∧ (1 : Byte) ≠ 0 := by unfold BusFree BusOpen; decide
theorem wit_StatusPageSuppressed : BusOpen standby ∧ BusFree active := by unfold BusFree BusOpen; decide

/-- The record whose readout is still reading, restarted `n` times. -/
def reading (n : Nat) : State :=
  { flying with
    disp :=
      { flying.disp with
        inFlight := [⟨0, .record 0 1, none, false, some 0⟩]
        readouts := #v[some ⟨0, .record 0 1, true, [], n⟩, none, none, none] } }

/-- Suppressed, uncaptured in RELEASED and with no byte enabled, volatile, structural, and structural over a reading
record that has restarted 2 and 3 times. -/
theorem wit_RecordWriteByRole :
    placeOf small 5 = .record 0 ⟨0, 4, 5, 3, 8, 0, true, 0⟩ 1 1 ∧
    placeOf small 7 = .record 0 ⟨0, 4, 5, 3, 8, 0, true, 0⟩ 1 3 ∧
    RecordWindow.isVolatile ⟨0, 4, 5, 3, 8, 0, true, 0⟩ 3 = true ∧
    RecordWindow.isVolatile ⟨0, 4, 5, 3, 8, 0, true, 0⟩ 1 = false ∧
    BusFree standby ∧ suppresses standby.rc = true ∧ suppresses closing.rc = true ∧
    BusFree released ∧ suppresses released.rc = false ∧ captures released.rc = false ∧
    BusFree active ∧ captures active.rc = true ∧ captures handoff.rc = true ∧ TagForm active ∧ MemoryLaw active ∧
    BusFree (reading 2) ∧ TagForm (reading 2) ∧
    ((reading 2).disp.inFlight.find? fun y => decide (y.item = .record 0 1) && stillReading (reading 2).disp y) =
      some ⟨0, .record 0 1, none, false, some 0⟩ ∧
    (reading 2).disp.readouts[0] = some ⟨0, .record 0 1, true, [], 2⟩ ∧
    (reading 3).disp.readouts[0] = some ⟨0, .record 0 1, true, [], 3⟩ := by
  unfold BusFree BusOpen TagForm MemoryLaw; decide

/-- Suppressed, queued at 127 entries, stalled at 128, and a DESYNC window. -/
theorem wit_JournalWriteByRole :
    placeOf small 65 = .journal 2 ⟨64, 8, 2⟩ 1 ∧ BusFree standby ∧ suppresses standby.rc = true ∧
    BusFree (queued 127) ∧ captures (queued 127).rc = true ∧
    queuesWrites (queued 127).journals.states[2] = true ∧ (queued 127).journals.queue.length = 127 ∧
    BusFree (queued 128) ∧ (queued 128).journals.queue.length = 128 ∧
    queuesWrites ({ active with journals := journalsAt .desync } : State).journals.states[2] = false := by
  unfold BusFree BusOpen; decide +kernel

/-- STANDBY with one entry for record 1 of slot 0 waiting. -/
def applying : State :=
  { standby with apply := { standby.apply with queue := [⟨0, .record 0 1 [1, 2, 3, 4]⟩] } }

theorem wit_ReadsHeldAndReleased :
    BusFree applying ∧ placeOf small 4 ≠ .outside ∧ covered applying 4 = true ∧ covered applying 3 = false ∧
    applies applying.rc.role = true ∧
    ({ applying with bpt := { applying.bpt with held := .read 4 } } : State).bpt.held = .read 4 ∧
    covered { standby with bpt := { standby.bpt with held := .read 4 } } 4 = false ∧
    ({ standby with rc := { standby.rc with bclkQuiet := some 1 } } : State).rc.bclkQuiet ≠ none ∧
    (let s : State := { applying with bpt := { applying.bpt with held := .port ⟨false, 4, 0, 0, 0⟩ } }
     s.bpt.held = .port ⟨false, 4, 0, 0, 0⟩ ∧ s.rc.bclkQuiet = none ∧ s.bpt.waitCount < 32 ∧ covered s 4 = true) := by
  unfold BusFree BusOpen; decide
theorem wit_BlockedAccessWaits :
    ({ standby with bpt := { standby.bpt with held := .read 4 } } : State).bpt.held ≠ .none ∧
    ({ standby with rc := { standby.rc with bclkQuiet := some 1 } } : State).rc.bclkQuiet ≠ none := by decide

/-- The waiting count at 32 with a status posting as the only request, and with the readout of word 7, a volatile
position of a record whose words 4, 5 and 6 have been read. -/
theorem wit_WaitingRuleServes :
    (let s : State :=
      { active with
        bpt := { active.bpt with waitCount := 32 }
        csu := { active.csu with postQueue := [⟨4, 0⟩] } }
     BusOpen s ∧ s.bpt.waitCount = 32 ∧ regionOf s.windows 100 = .ordinary ∧ currentOffers s = [.status 4] ∧
      s.csu.resultHold = none ∧ PostedLaw s ∧ RoomLaw s) ∧
    (let s : State :=
      { reading 0 with
        bpt := { active.bpt with waitCount := 32 }
        disp := { (reading 0).disp with
          readouts := #v[some ⟨0, .record 0 1, true, List.replicate 3 (1, .good), 0⟩, none, none, none] }
        csu := { active.csu with postQueue := [] } }
     BusOpen s ∧ s.bpt.waitCount = 32 ∧ captures s.rc = true ∧ (7 : Addr).toNat < Config.statusBase ∧
      placeOf s.windows (7 : Addr).toNat = .record 0 ⟨0, 4, 5, 3, 8, 0, true, 0⟩ 1 3 ∧
      RecordWindow.isVolatile ⟨0, 4, 5, 3, 8, 0, true, 0⟩ 3 = true ∧
      currentOffers s = [.readout 0 0 3] ∧ offeredReadout s = some 7 ∧ FlightLaw s) := by
  refine ⟨⟨by unfold BusOpen; decide, by decide, by decide, by decide, by decide, posted_of _ (by decide), by unfold RoomLaw; decide⟩,
    by unfold BusOpen; decide, by decide, by decide, by decide, by decide, by decide, by decide, by decide,
    by unfold TagForm; decide, small_bases, by decide, by decide, by decide, by decide⟩

/-- The waiting count at `n`, status word 4 pending alone, and the offered requests of the state in the order of `f`. -/
def contended (n : Nat) (f : List Offer → List Offer) (s : State) : State :=
  let t : State := { s with csu := { s.csu with postQueue := [⟨4, 0⟩] } }
  { t with bpt := { t.bpt with waitCount := n, offers := f (currentOffers t) } }

theorem offers_law {s : State} (n : s.bpt.offers.Nodup) (a : s.bpt.offers.all (fun o => decide (o ∈ currentOffers s)) = true)
    (b : (currentOffers s).all (fun o => decide (o ∈ s.bpt.offers)) = true)
    (c : currentOffers s ≠ [] ∨ s.bpt.waitCount = 0) : OffersLaw s :=
  ⟨n, fun o => ⟨fun h => of_decide_eq_true (List.all_eq_true.mp a o h), fun h => of_decide_eq_true (List.all_eq_true.mp b o h)⟩,
    fun h => c.resolve_left (fun k => k h)⟩

theorem role_reading : RoleLaw (contended 32 id (reading 0)) ∧ RoleLaw (contended 32 List.reverse (reading 0)) ∧
    RoleLaw (contended 32 id applying) := by
  refine ⟨?_, ?_, ?_⟩ <;> constructor <;> (try unfold ClaimLaw) <;> decide

/-- The longest waiting request of each class, with another behind it; below 32, with a request and without one. -/
theorem wit_WaitingRuleServes_order :
    (let s := contended 32 id (reading 0)
     BusOpen s ∧ OffersLaw s ∧ s.bpt.waitCount = 32 ∧ s.bpt.offers = .readout 0 0 0 :: [.status 4] ∧
      offeredReadout s = some 4 ∧ regionOf s.windows 100 = .ordinary) ∧
    (let s := contended 32 List.reverse (reading 0)
     BusOpen s ∧ OffersLaw s ∧ s.bpt.offers = .status 4 :: [.readout 0 0 0] ∧ PostedLaw s ∧ RoomLaw s) ∧
    (let s := contended 32 id applying
     BusOpen s ∧ OffersLaw s ∧ s.bpt.offers.head? = some (.apply 0 0 false) ∧ (nextMergeRead s).isSome = false ∧
      nextClass s = some .apply) ∧
    (BusFree (contended 31 id (reading 0)) ∧ OffersLaw (contended 31 id (reading 0)) ∧
      OffersLaw { active with csu := { active.csu with postQueue := [] }, bpt := { active.bpt with offers := [] } }) := by
  refine ⟨⟨by unfold BusOpen; decide, offers_law (by decide) (by decide) (by decide) (by decide), by decide⟩,
    ⟨by unfold BusOpen; decide, offers_law (by decide) (by decide) (by decide) (by decide), by decide,
      posted_of _ (by decide), by unfold RoomLaw; decide +kernel⟩,
    ⟨by unfold BusOpen; decide, offers_law (by decide) (by decide) (by decide) (by decide), by decide⟩,
    by unfold BusFree BusOpen; decide, offers_law (by decide) (by decide) (by decide) (by decide),
    offers_law (by decide) (by decide) (by decide) (by decide)⟩

/-- The offered read of a volatile word and of a journal word, which a ready write is to write. -/
theorem wit_WaitingRuleServes_exception :
    (let s := contended 32 id { reading 0 with
       disp := { (reading 0).disp with
         readouts := #v[some ⟨0, .record 0 1, true, List.replicate 3 (1, .good), 0⟩, none, none, none] } }
     BusOpen s ∧ OffersLaw s ∧ captures s.rc = true ∧ s.bpt.offers = .readout 0 0 3 :: [.status 4] ∧
      offeredReadout s = some 7 ∧ placeOf s.windows 7 = .record 0 ⟨0, 4, 5, 3, 8, 0, true, 0⟩ 1 3) ∧
    (let s := contended 32 id { reading 0 with
       disp := { (reading 0).disp with
         inFlight := [⟨0, .journal (.block 2 4 true), none, false, some 0⟩]
         readouts := #v[some ⟨0, .block 2 4, true, [], 0⟩, none, none, none] } }
     BusOpen s ∧ OffersLaw s ∧ captures s.rc = true ∧ s.bpt.offers = .readout 0 0 0 :: [.status 4] ∧
      offeredReadout s = some 68 ∧ placeOf s.windows 68 = .journal 2 ⟨64, 8, 2⟩ 4 ∧ s.journals.queue.length < 128) := by
  refine ⟨⟨by unfold BusOpen; decide, offers_law (by decide) (by decide) (by decide) (by decide), by decide⟩,
    by unfold BusOpen; decide, offers_law (by decide) (by decide) (by decide) (by decide), by decide⟩

/-- The readout of a record's K as the only request, at a count of 32. -/
def readingAlone : State :=
  { reading 0 with
    journals := journalsAt .inStep, link := { flying.link with nextSeq := 1 }, csu := { active.csu with postQueue := [] }
    bpt := { active.bpt with waitCount := 32, offers := [.readout 0 0 0] } }

theorem readingAlone_readouts : ReadoutLaw readingAlone := by
  refine ⟨?_, by decide⟩
  intro e he r hr
  obtain rfl : e = ⟨0, .record 0 1, none, false, some 0⟩ := List.mem_singleton.mp he
  obtain rfl : (0 : Fin 4) = r := Option.some.inj hr
  exact ⟨_, rfl, rfl, rfl, _, rfl, by decide⟩

/-- The offered read of K, alone, which a structural write of that K restarts. -/
theorem wit_WaitingRuleServes_restart :
    BusOpen readingAlone ∧ OffersLaw readingAlone ∧ readingAlone.bpt.waitCount = 32 ∧ captures readingAlone.rc = true ∧
    (4 : Addr).toNat < Config.statusBase ∧ readingAlone.bpt.offers = .readout 0 0 0 :: [] ∧
    offeredReadout readingAlone = some 4 ∧
    placeOf readingAlone.windows (4 : Addr).toNat = .record 0 ⟨0, 4, 5, 3, 8, 0, true, 0⟩ 1 0 ∧
    ReadoutLaw readingAlone ∧ TableLaw readingAlone.windows ∧ PostedLaw readingAlone :=
  ⟨by unfold BusOpen; decide, offers_law (by decide) (by decide) (by decide) (by decide), rfl, by decide, by decide, rfl,
    by decide, by decide, readingAlone_readouts, small_table, posted_of _ (by decide)⟩

/-- R31, R63: the write of K restarts its readout and is not held for it. -/
theorem test_restart_not_held :
    let t := after (.recordWindowWrite 4 7 0 255) readingAlone
    (t.bpt.waitCount, t.bpt.offers, t.bpt.held, memRead t.mem 4) = (32, [.readout 0 1 0], .none, ⟨7, 0⟩) := by
  decide +kernel

/-- R31: at a count of 32 the slot goes to the class that has waited longest, whichever it is, and the count starts again. -/
theorem test_longest_waiting_served :
    let t := after (.ordinaryAccess ⟨false, 100, 0, 0, 0⟩) (contended 32 List.reverse (reading 0))
    let u := after (.ordinaryAccess ⟨false, 100, 0, 0, 0⟩) (contended 32 id (reading 0))
    (t.csu.postQueue, t.bpt.waitCount) = ([], 1) ∧ u.csu.postQueue = [⟨4, 0⟩] ∧ u.bpt.waitCount = 1 ∧
    t.bpt.offers = [.readout 0 0 0] ∧ u.bpt.offers.head? = some (.status 4) := by decide +kernel

/-- A write stalled at journal offset 1 of slot 2, with `n` entries queued. -/
def stalled (n : Nat) : State :=
  { queued n with bpt := { active.bpt with held := .stall ⟨true, 65, 7, 9, 255⟩ 3 } }

theorem wit_StallEnds :
    placeOf small 65 = .journal 2 ⟨64, 8, 2⟩ 1 ∧ (stalled 127).bpt.held = .stall ⟨true, 65, 7, 9, 255⟩ 3 ∧
    (stalled 127).bpt.waitCount < 32 ∧ captures (stalled 127).rc = true ∧
    queuesWrites (stalled 127).journals.states[2] = true ∧ (stalled 127).journals.queue.length < 128 ∧
    128 ≤ (stalled 128).journals.queue.length := by decide +kernel
theorem wit_StallEnds_room :
    (∃ t, exec .journalStallRoom (stalled 127) = .next t) ∧ ∃ t, exec .journalStallRoom active = .next t :=
  ⟨⟨_, rfl⟩, _, rfl⟩

theorem stalled_law : StallStands (stalled 128) := stands_of rfl (by decide +kernel) (by decide +kernel)

theorem wit_HousekeepingWords : BusFree active ∧ (0x80 : Byte) ≠ 0 := by unfold BusFree BusOpen; decide

/-- Legal and illegal operands at the edges of the checks of DEFINE_WINDOW. -/
theorem wit_DefineCheckOrder :
    TableLaw small ∧
    (⟨7, 1, 4, 3, 7, 3, true, 524156, 1, 0⟩ : DefineFields).recordLegal = true ∧
    (checkDefine .init small ⟨7, 1, 4, 3, 7, 3, true, 524156, 1, 0⟩).toOption =
      some (7, .record ⟨524156, 4, 1, 3, 7, 3, true, 0⟩) ∧
    (⟨0, 1, 4, 0, 0, 0, false, 524160, 1, 0⟩ : DefineFields).recordLegal = true ∧
    (⟨0, 1, 4, 0, 0, 0, false, 524156, 2, 0⟩ : DefineFields).recordLegal = true ∧
    (⟨0, 2, 0, 0, 0, 3, false, 524160, 0, 8192⟩ : DefineFields).journalLegal = true ∧
    (⟨0, 2, 0, 0, 0, 3, false, 524156, 0, 8⟩ : DefineFields).journalLegal = true ∧
    (let f : DefineFields := ⟨7, 2, 0, 0, 0, 0, false, 68, 0, 4⟩
     f.journalLegal = true ∧ (small[2]).overlaps f.window = true) ∧
    (let f : DefineFields := ⟨0, 1, 4, 0, 0, 0, false, 100, 65532, 0⟩
     f.recordLegal = true ∧ (∀ i : Slot, i ≠ 0 → (small[i]).overlaps f.window = false) ∧
      sumSlots Window.records small (allSlots.filter fun i => decide (i ≠ 0)) + f.count = 65537) := by
  refine ⟨small_table, ?_⟩
  decide +kernel

/-- DEFINE_WINDOW of slot 4 in INIT and refused in ACTIVE; CLEAR_WINDOW with slot 7, 8 and outside INIT. -/
theorem wit_WindowCommandsTaken :
    let s := ops 0x0103_0000_0004_0104 0x00000005_00000100 inInit
    BusFree s ∧ s.csu.running = none ∧
    (checkDefine s.rc.role s.windows (defineFields s.bpt.shadow[1] s.bpt.shadow[2] s.bpt.shadow[3])).toOption =
      some (4, .record ⟨256, 4, 5, 3, 0, 0, true, 0⟩) ∧
    checkDefine active.rc.role active.windows (defineFields 0 0 0) = .error .wrongRole ∧
    BusFree active ∧ active.csu.running = none ∧ active.rc.role ≠ .init ∧
    7 < bitsOf (ops 8 0 inInit).bpt.shadow[1] 0 8 ∧ bitsOf (ops 7 0 inInit).bpt.shadow[1] 0 8 = (7 : Slot).val := by
  unfold BusFree BusOpen; decide +kernel

/-- A DEFINE_WINDOW of a record window, one of a journal window, and a CLEAR_WINDOW running. -/
theorem wit_WindowCommandCompletes :
    (∃ n, ({ inInit with csu := { inInit.csu with running := some (.define 4 (.record ⟨256, 4, 5, 3, 0, 0, true, 0⟩) 3) } } :
      State).csu.running = some (.define 4 (.record ⟨256, 4, 5, 3, 0, 0, true, 0⟩) n)) ∧
    (∃ n, ({ inInit with csu := { inInit.csu with running := some (.define 7 (.journal ⟨256, 8, 1⟩) 0) } } :
      State).csu.running = some (.define 7 (.journal ⟨256, 8, 1⟩) n)) ∧
    (∃ n, ({ inInit with csu := { inInit.csu with running := some (.clear 0 0) } } : State).csu.running =
      some (.clear 0 n)) ∧ TagForm inInit :=
  ⟨⟨3, rfl⟩, ⟨0, rfl⟩, ⟨0, rfl⟩, by unfold TagForm; decide⟩

theorem wit_SetTimingClamps :
    BusFree inInit ∧ inInit.csu.running = none ∧ inInit.rc.role = .init ∧ active.rc.role ≠ .init ∧ BusFree active ∧
    1 < bitsOf (ops 0 2 inInit).bpt.shadow[2] 0 8 ∧
    bitsOf (ops 0 0x010101 inInit).bpt.shadow[2] 0 8 ≤ 1 ∧ bitsOf (ops 0 0x010101 inInit).bpt.shadow[2] 8 8 ≤ 1 ∧
    bitsOf (ops 0 0x010101 inInit).bpt.shadow[2] 16 8 ≤ 1 := by
  unfold BusFree BusOpen; decide
theorem wit_StartTakesRole :
    BusFree inInit ∧ inInit.csu.running = none ∧ inInit.rc.role = .init ∧ ClaimLaw inInit ∧
    bitsOf (ops 1 0 inInit).bpt.shadow[1] 0 8 = 1 ∧ bitsOf (ops 3 0 inInit).bpt.shadow[1] 0 8 = 3 ∧
    bitsOf (ops 2 0 inInit).bpt.shadow[1] 0 8 ≠ 1 ∧ bitsOf (ops 2 0 inInit).bpt.shadow[1] 0 8 ≠ 3 ∧
    BusFree active ∧ active.csu.running = none ∧ active.rc.role ≠ .init := by
  unfold BusFree BusOpen ClaimLaw; decide
theorem wit_StopReturnsToInit :
    BusFree inInit ∧ inInit.rc.role = .init ∧ BusFree handoff ∧ handoff.rc.role ≠ .init ∧
    handoff.csu.running = some .switchover ∧ inInit.csu.running = none ∧
    pendingValue 2 handoff.csu.postQueue = some resetWord2 ∧ resetWord2.getLsbD 63 = true ∧
    pendingValue 2 ({ handoff.csu with postQueue := [] } : Csu).postQueue = none := by
  unfold BusFree BusOpen; decide

/-- SWITCHOVER refused in each way, taken, and converged at once. -/
theorem wit_SwitchoverEntersHandoff :
    BusFree standby ∧ standby.csu.running = none ∧ standby.rc.role ≠ .active ∧
    BusFree active ∧ active.csu.running = none ∧ active.rc.role = .active ∧ ClaimLaw active ∧
    bitsOf (ops 9 0 active).bpt.shadow[1] 0 16 < 10 ∧ 10000 < bitsOf (ops 10001 0 active).bpt.shadow[1] 0 16 ∧
    10 ≤ bitsOf (ops 10 0 active).bpt.shadow[1] 0 16 ∧ bitsOf (ops 10000 0 active).bpt.shadow[1] 0 16 ≤ 10000 ∧
    active.link.view = .paired ∧ active.link.peer.role = .standby ∧ active.link.peer.sync = .inSync ∧
    (∀ p ∈ active.rts.tags, p.2.state = .clean) ∧ active.journals.queue = [] ∧ active.pass.phase = .none ∧
    (∀ k : Slot, active.journals.states[k] = none ∨ active.journals.states[k] = some .inStep) ∧
    ¬ ∀ p ∈ flying.rts.tags, p.2.state = .clean := by
  unfold BusFree BusOpen ClaimLaw; decide +kernel

/-- STANDBY with a STANDBY peer, and with the link down. -/
def paired : State := { standby with link := linkUp ⟨.standby, .unsynced, 1, 0⟩ }
def alone : State := { standby with link := { standby.link with state := .train, view := .lost } }

theorem wit_TakeOverMoves :
    BusFree active ∧ active.csu.running = none ∧ active.rc.role ≠ .standby ∧
    BusFree standby ∧ standby.csu.running = none ∧ standby.link.view = .paired ∧ standby.link.peer.role = .active ∧
    BusFree paired ∧ paired.rc.role = .standby ∧ paired.link.peer.role = .standby ∧ paired.link.state = .up ∧
    paired.apply.queue = [] ∧ alone.link.state ≠ .up ∧ alone.link.view ≠ .paired ∧ BusFree alone ∧
    ({ alone with apply := applying.apply } : State).apply.queue ≠ [] ∧ paired.link.peer.sync ≠ .inSync ∧
    (let s : State := { paired with link := linkUp ⟨.standby, .inSync, 0, 0⟩, rc := { roleIn .standby with epoch := 0xFFFFFFFF } }
     BusFree s ∧ s.link.peer.sync = .inSync ∧ s.link.peer.epoch = maxEpoch s.rc.epoch s.link.peer.epoch + 1 ∧
      s.link.peer.gen = s.pass.gen) := by
  unfold BusFree BusOpen; decide

theorem wit_ReleaseAndResume :
    BusFree active ∧ active.csu.running = none ∧ active.rc.role = .active ∧ BusFree released ∧
    released.csu.running = none ∧ released.rc.role = .released ∧ released.link.peer.role = .active ∧
    released.link.view ≠ .lost ∧ released.rc.closing = false ∧ released.apply.queue = [] ∧
    (let s : State := { released with link := { released.link with state := .train, view := .lost } }
     s.link.view = .lost ∧ s.csu.timing.takeoverAuto = true ∧ s.rc.claimIn = false) ∧
    (let s : State := { released with link := linkUp ⟨.standby, .unsynced, 1, 0⟩ }
     s.link.view = .paired ∧ s.link.peer.role = .standby ∧ s.link.peer.sync ≠ .inSync ∧ s.rc.unit = .a ∧
      s.csu.timing.takeoverAuto = true) ∧
    (let s : State := { released with link := linkUp standbyPeer }
     s.link.view = .paired ∧ s.link.peer.role = .standby ∧ s.link.peer.sync = .inSync) := by
  unfold BusFree BusOpen; decide

theorem wit_ResyncRestarts :
    BusFree standby ∧ standby.csu.running = none ∧ standby.rc.role ≠ .active ∧
    BusFree active ∧ active.csu.running = none ∧ active.rc.role = .active ∧ active.link.view = .paired ∧
    active.link.peer.role = .standby ∧ ({ active with link := linkUp ⟨.init, .unsynced, 0, 0⟩ } : State).link.peer.role ≠ .standby := by
  unfold BusFree BusOpen; decide

/-- Slot 8, a NONE slot, a record of index N − 1 and one of index N. -/
theorem wit_QueryReports :
    BusFree active ∧ active.csu.running = none ∧ 7 < bitsOf (8 : DWord) 0 8 ∧
    bitsOf (7 : DWord) 0 8 = (7 : Slot).val ∧ recordAt small 7 = none ∧
    recordAt small 0 = some ⟨0, 4, 5, 3, 8, 0, true, 0⟩ ∧
    bitsOf (0x4_00000000 : DWord) 32 16 < 5 ∧ 5 ≤ bitsOf (0x5_00000000 : DWord) 32 16 := by
  unfold BusFree BusOpen; decide
theorem wit_CommandsTurnedAway :
    BusFree active ∧ active.csu.running = none ∧
    (0 : Byte) ∉ ([0x01, 0x02, 0x03, 0x10, 0x11, 0x12, 0x13, 0x14, 0x15, 0x20, 0x21] : List Byte) ∧
    BusFree handoff ∧ handoff.csu.running ≠ none := by
  unfold BusFree BusOpen; decide

/-- ACTIVE with the link in the state `x`. -/
def linkIn (x : LinkState) (f : Link → Link) : State :=
  { active with link := f { State.reset.link with state := x, periodClock := some 0 } }

/-- TRAIN, HELLO, and an aligned receiver, at no stray byte and at three. -/
theorem wit_TrainingAndHello :
    StallStands active ∧ (linkIn .train id).link.state = .train ∧ (linkIn .train id).link.aligned = false ∧
    (linkIn .hello id).link.state = .hello ∧
    (linkIn .train fun l => { l with aligned := true }).link.aligned = true ∧
    (linkIn .train fun l => { l with aligned := true }).link.incoming = none ∧
    (linkIn .train fun l => { l with aligned := true, strayBytes := 3 }).link.strayBytes = 3 ∧
    byteKind 0x5A false false = .idle ∧ byteKind 0x00 false false = .other :=
  ⟨stands rfl, rfl, rfl, rfl, rfl, rfl, rfl, by decide, by decide⟩
theorem wit_BytesBetweenFrames :
    StallStands active ∧ active.link.state = .up ∧ (linkIn .hello id).link.state = .hello ∧
    active.link.strayBytes ≠ 3 ∧ byteKind 0x5A false false = .idle ∧ byteKind 0x00 false false = .other ∧
    byteKind 0x4B true false = .alignmentIdle ∧ byteKind 0x4B true true = .frameFirst ∧ active.link.incoming = none ∧
    lengthOf ([3, 0] ++ [0]) ≠ some 3 ∧ lengthOf (List.replicate 11 3 ++ [3]) = some 12 ∧
    parseFrame (List.replicate 11 3 ++ [3]) false = none ∧
    parseFrame ((frameBytes (.ack 5)).take 11 ++ [(frameBytes (.ack 5)).getD 11 0]) false = some (.ack 5) :=
  ⟨stands rfl, by decide +kernel⟩

/-- UP on an ACTIVE part with entries in flight, in HANDOFF, in closing, with a stalled write, with the ack timer
running, and with the sequence-closed flag set. -/
theorem wit_LinkLeavesUp :
    (flying.link.state = .up ∧ RoleLaw flying ∧ StallStands flying ∧ FlightLaw flying ∧ flying.rc.closing = false ∧
      flying.rc.role ≠ .handoff ∧ flying.disp.ackTimer.isSome = true) ∧
    (RoleLaw handoff ∧ StallStands handoff ∧ handoff.rc.closing = false ∧ handoff.link.state = .up) ∧
    (RoleLaw closing ∧ StallStands closing ∧ closing.rc.closing = true) ∧
    (StallStands (stalled 128) ∧ RoleLaw (stalled 128) ∧ (stalled 128).link.state = .up ∧
      (stalled 128).rc.closing = false) ∧
    closedRetrainDue { active with disp := { active.disp with seqClosed := true } } = true := by
  refine ⟨⟨rfl, role_flying, stands rfl, flying_flight, rfl, by decide, rfl⟩, ⟨role_handoff, stands rfl, rfl, rfl⟩,
    ⟨role_closing, stands rfl, rfl⟩, ⟨stalled_law, ?_, rfl, rfl⟩, by decide⟩
  constructor <;> (try unfold ClaimLaw) <;> decide +kernel

/-- A waiting NAK, ACK, HEARTBEAT and HELLO; a ready control item, a record not yet ready, and nothing to send. -/
theorem wit_TransmitterOrder :
    (withLink (fun l => { l with nakWaiting := true }) active).link.nakWaiting = true ∧
    (withLink (fun l => { l with ackWaiting := true }) standby).link.ackWaiting = true ∧
    (withLink (fun l => { l with heartbeatWaiting := true }) active).link.heartbeatWaiting = true ∧
    (linkIn .hello fun l => { l with helloWaiting := true }).link.helloWaiting = true ∧
    (let x : InFlight := ⟨0, .control .syncBegin, none, false, none⟩
     let s : State := { active with disp := { active.disp with inFlight := [x] } }
     s.disp.inFlight = [] ++ x :: [] ∧ x.transmitted = false ∧ frameReady s.disp x = true ∧
      (s.disp.inFlight.map (·.seq)).Nodup) ∧
    frameReady (reading 0).disp ⟨0, .record 0 1, none, false, some 0⟩ = false ∧
    (reading 0).link.nakWaiting = false ∧ (reading 0).link.ackWaiting = false ∧
    (reading 0).link.heartbeatWaiting = false ∧ (reading 0).link.resetTicks = none ∧ (∀ x ∈ flying.disp.inFlight, x.transmitted = true) := by decide

/-- A record whose readout has read its words, K first, a block whose readout has read four, one that is still reading, and
the frames of the first two (R59, R61). -/
theorem wit_TransmitterOrder_frames :
    let words : List (DWord × ReadClass) := [(13, .good), (10, .good), (11, .corrected), (12, .good)]
    let s (reading : Bool) : State :=
      { flying with
        disp := { flying.disp with
          readouts := #v[some ⟨0, .record 0 1, reading, words, 0⟩, some ⟨1, .block 2 4, reading, words, 0⟩, none, none] } }
    let w : RecordWindow := ⟨0, 4, 5, 3, 8, 0, true, 0⟩
    let x : InFlight := ⟨0, .record 0 1, some .record, false, some 0⟩
    let y : InFlight := ⟨1, .journal (.block 2 4 true), none, false, some 1⟩
    (s false).windows[(0 : Slot)] = .record w ∧ w.stateWord < w.size ∧
    words.map (·.1) = [13, 10, 11, 12] ∧
    ((List.range w.size).filter fun p => decide (p ≠ w.stateWord)) = [1, 2, 3] ∧
    frameReady (s true).disp y = false ∧ frameReady (s false).disp y = true ∧
    frameBody (s false) y = .journalBlock 2 4 true 13 10 11 12 ∧
    frameBody (s false) x = .record 0 1 [13, 10, 11, 12] ∧
    frameBody { s false with windows := small.set 0 (.record { w with stateWord := 2, volatileSet := 0 }) } x =
      .record 0 1 [10, 11, 13, 12] := by decide

/-- A HELLO that says seen. -/
def seenHello : HelloFrame := ⟨.a, .active, .inSync, 1, 0, true, tableGeometry small⟩

/-- HELLO while the local HELLO that says seen is being sent, with the peer record `p`; `i`: a peer HELLO has said
seen. -/
def helloing (p : PeerRecord) (i : Bool) : State :=
  linkIn .hello fun l => { l with sending := some ⟨.hello seenHello, false⟩, peer := p, helloSeenIn := i }

/-- A HELLO from unit B in role STANDBY. -/
def peerHello : HelloFrame := ⟨.b, .standby, .inSync, 1, 0, false, tableGeometry small⟩

/-- Without a peer HELLO that said seen, with one from a peer that is not STANDBY, and the two decisions. -/
theorem wit_HelloMovesUp :
    (helloing standbyPeer false).link.state = .hello ∧ StallStands (helloing standbyPeer false) ∧ seenHello.seen = true ∧
    (helloing standbyPeer false).link.sending = some ⟨.hello seenHello, false⟩ ∧
    peerSilent (helloing standbyPeer false) = false ∧ (helloing standbyPeer false).rc.role ≠ .standby ∧
    (helloing ⟨.init, .unsynced, 0, 0⟩ true).link.peer.role ≠ .standby ∧
    (let s := helloing standbyPeer true
     s.link.helloSeenIn = true ∧ s.link.peer.role = .standby ∧ s.link.peer.sync = .inSync ∧
      s.link.peer.epoch = s.rc.epoch ∧ s.link.peer.gen = s.pass.gen) ∧
    (helloing ⟨.standby, .unsynced, 1, 0⟩ true).link.peer.sync ≠ .inSync :=
  ⟨rfl, stands rfl, by decide⟩

/-- A received HELLO that completes the move, and a STANDBY part whose peer claims nothing. -/
theorem wit_HelloMovesUp_received :
    (let s := linkIn .hello fun l => { l with helloSeenOut := true }
     s.link.state = .hello ∧ s.link.helloSeenOut = true ∧ (s.link.helloSeenIn || { peerHello with seen := true }.seen) = true ∧
      s.link.incoming = none ∧ peerHello.geometry = tableGeometry s.windows ∧ peerHello.unit ≠ s.rc.unit ∧
      ¬ (claims peerHello.role = true ∧ claims s.rc.role = true)) ∧
    (let s : State := { standby with link := (helloing standbyPeer true).link }
     s.rc.role = .standby ∧ s.link.peer.role ≠ .active ∧ s.link.peer.role ≠ .handoff ∧ s.link.peer.role ≠ .takeover ∧
      s.link.view ≠ .paired ∧ s.rc.closing = false) := by decide

/-- R84: a HELLO that fails the check ends a HELLO being sent (log entry 28): the cable carries idle bytes only. -/
theorem test_incompatible_sends_idle :
    let t := after (.helloReceived { peerHello with unit := .a }) (helloing standbyPeer false)
    (helloing standbyPeer false).link.sending ≠ none ∧ t.link.state = .incompatible ∧ cableFrame t.link = [] ∧
    cableIdle t.link = some idleByte := by decide +kernel

/-- R142: over a peer in INIT no unit wins (log entry 29); over one in RELEASED the local unit does. -/
theorem test_init_peer_no_winner :
    let s (r : Role) : State := { standby with link := linkUp ⟨r, .inSync, 1, 0⟩ }
    noActive (s .init) = true ∧ localWins (s .init) = false ∧ localWins (s .released) = true := by decide

/-- A HELLO that fails each half of the check, one that passes, one in UP, one in TRAIN before and after alignment, one in
OFF and one in INCOMPATIBLE. -/
theorem wit_HelloChecked :
    (StallStands (linkIn .hello id) ∧ peerSilent (linkIn .hello id) = false ∧
      ¬ (claims peerHello.role = true ∧ claims (linkIn .hello id).rc.role = true) ∧
      (linkIn .hello id).link.state = .hello ∧ (linkIn .hello id).link.view ≠ .paired ∧
      peerHello.geometry = tableGeometry (linkIn .hello id).windows ∧ peerHello.unit ≠ (linkIn .hello id).rc.unit ∧
      (linkIn .hello id).link.helloSeenOut = false ∧ (linkIn .hello id).link.incoming = none) ∧
    (standby.rc.role = .standby ∧ peerHello.role ≠ standby.link.peer.role ∧ standby.link.view = .paired ∧
      standby.rc.closing = false) ∧
    { peerHello with geometry := Vector.replicate 8 .none }.geometry ≠ tableGeometry (linkIn .hello id).windows ∧
    { peerHello with unit := .a }.unit = (linkIn .hello id).rc.unit ∧
    (active.link.state = .up ∧ active.link.view = .paired ∧ peerHello.role = active.link.peer.role ∧
      active.rc.closing = false ∧ active.rc.role ≠ .standby) ∧
    (claims { peerHello with role := .released }.role = false ∧ { peerHello with role := .released }.role ≠ active.link.peer.role) ∧
    (linkIn .train fun l => { l with aligned := true }).link.aligned = true ∧ inInit.link.state = .off ∧
    (linkIn .train id).link.aligned = false ∧ (linkIn .incompatible id).link.state = .incompatible :=
  ⟨⟨stands rfl, by decide⟩, by decide⟩

/-- A HEARTBEAT in INCOMPATIBLE, in OFF and in TRAIN before alignment, one that changes nothing, one from a peer that
leaves STANDBY and one from a peer that enters it. -/
theorem wit_HeartbeatEntered :
    (StallStands active ∧ peerSilent active = false ∧ (linkIn .incompatible id).link.state ≠ .up ∧
      checksFrames (linkIn .incompatible id).link = true ∧ peerSilent (linkIn .incompatible id) = false ∧
      inInit.link.state = .off ∧ (linkIn .train id).link.state = .train ∧ (linkIn .train id).link.aligned = false) ∧
    (active.link.view = .paired ∧ active.link.peer.role = .standby ∧ oldestSeq active = 0 ∧
      active.rc.closing = false ∧ active.rc.role = .active ∧ active.link.peer = ⟨.standby, .inSync, 1, 0⟩) ∧
    (standby.rc.role = .standby ∧ standby.link.view = .paired ∧ standby.link.peer.role = .active ∧
      oldestSeq standby = 0 ∧ peerSilent standby = false) ∧
    (let s : State := { active with link := linkUp ⟨.init, .unsynced, 0, 0⟩ }
     s.link.peer.role ≠ .standby ∧ s.disp.inFlight = [] ∧ s.link.nextSeq = 0 ∧ s.rc.role = .active) ∧
    (released.link.state = .up ∧ released.rc.role = .released ∧ released.disp.inFlight = [] ∧ released.link.nextSeq = 0 ∧
      released.link.peer.role ≠ .standby ∧ peerSilent released = false) ∧
    (standby.disp.inFlight = [] ∧ standby.link.nextSeq = 0 ∧ standby.rc.closing = false) :=
  ⟨⟨stands rfl, by decide⟩, by decide⟩

/-- A peer that leaves STANDBY while entries are in flight, and while a write is stalled; the handoff before and in
closing. -/
theorem wit_HeartbeatEntered_handoff :
    (SequenceLaw flying ∧ StallStands flying ∧ flying.link.state = .up ∧ flying.link.incoming = none ∧
      oldestSeq flying = 0 ∧ flying.disp.inFlight ≠ []) ∧
    (SequenceLaw (stalled 128) ∧ StallStands (stalled 128) ∧ (stalled 128).link.state = .up ∧
      (stalled 128).rc.role = .active ∧ (stalled 128).link.peer.role = .standby ∧ oldestSeq (stalled 128) = 0) ∧
    LinkLaw handoff ∧ LinkLaw closing ∧
    (handoff.link.state = .up ∧ handoff.rc.role = .handoff ∧ oldestSeq handoff = 0 ∧ RoleLaw handoff ∧
      handoff.rc.closing = false ∧ handoff.link.peer.role = .standby ∧ peerSilent handoff = false) ∧
    RoleLaw closing ∧ closing.rc.closing = true ∧ closing.link.peer.role ≠ .released ∧ SequenceLaw closing :=
  ⟨⟨flying_sequence, stands rfl, by decide⟩,
    ⟨⟨by decide, by decide, fun _ j hj => absurd hj (Nat.not_lt_zero j)⟩, stalled_law, rfl, rfl, rfl, rfl⟩,
    by unfold LinkLaw; decide, by unfold LinkLaw; decide, ⟨rfl, rfl, rfl, role_handoff, by decide⟩, role_closing, rfl,
    by decide, by decide, by decide, fun _ j hj => absurd hj (Nat.not_lt_zero j)⟩

/-- The link states in which an ACK and a NAK only count, or are not received. -/
theorem wit_FramesOutsideUp :
    StallStands (linkIn .incompatible id) ∧ checksFrames (linkIn .incompatible id).link = true ∧
    StallStands (linkIn .hello id) ∧ checksFrames (linkIn .hello id).link = true ∧
    checksFrames (linkIn .train fun l => { l with aligned := true }).link = true ∧
    (linkIn .incompatible id).link.incoming = none ∧ inInit.link.state = .off ∧ inInit.link.incoming = none ∧
    (linkIn .train id).link.state = .train ∧ (linkIn .train id).link.aligned = false :=
  ⟨stands rfl, rfl, stands rfl, rfl, by decide⟩

/-- The A that takes one entry, the A that takes both, the A of the oldest entry, one before it, the first above the
transmitted entries and the one 32,768 away. -/
theorem wit_AppliedResolved :
    StallStands flying ∧ flying.link.state = .up ∧ flying.rc.role ≠ .handoff ∧ FlightLaw flying ∧ JournalLaw flying ∧
    transmittedCount flying.disp = 2 ∧ ((1 : SeqNo) - oldestSeq flying).toNat = 1 ∧
    ((2 : SeqNo) - oldestSeq flying).toNat = 2 ∧ ((0 : SeqNo) - oldestSeq flying).toNat = 0 ∧
    ((65535 : SeqNo) - oldestSeq flying).toNat = 65535 ∧ ((32769 : SeqNo) - oldestSeq flying).toNat = 32769 ∧
    ((3 : SeqNo) - oldestSeq flying).toNat = 3 ∧ ((32768 : SeqNo) - oldestSeq flying).toNat = 32768 ∧
    flying.link.incoming = none :=
  ⟨stands rfl, rfl, by decide, flying_flight, flying_journal, by decide⟩

/-- The copy-last blocks of two windows in flight, slot 2 COPYING and slot 3 in the state `x`, and a block that is not the
last before them. -/
def copying (x : JournalState) : State :=
  { active with
    journals :=
      { queue := [⟨.block 2 0 false, true⟩, ⟨.block 2 4 true, true⟩, ⟨.block 3 0 true, true⟩]
        states := #v[none, none, some (.copying 8), some x, none, none, none, none] }
    link := { linkUp standbyPeer with nextSeq := 3 }
    disp :=
      { active.disp with
        inFlight := [⟨0, .journal (.block 2 0 false), none, true, none⟩,
          ⟨1, .journal (.block 2 4 true), none, true, none⟩, ⟨2, .journal (.block 3 0 true), none, true, none⟩]
        ackTimer := some 0 } }

theorem wit_AppliedResolved_copy :
    StallStands (copying .desync) ∧ (copying .desync).link.state = .up ∧ (copying .desync).link.incoming = none ∧
    JournalLaw (copying .desync) ∧ FlightLaw (copying .desync) ∧ transmittedCount (copying .desync).disp = 3 ∧
    ((1 : SeqNo) - oldestSeq (copying .desync)).toNat = 1 ∧ ((3 : SeqNo) - oldestSeq (copying .desync)).toNat = 3 ∧
    isCopying (copying .desync).journals.states[2] = true ∧ isCopying (copying .desync).journals.states[3] = false :=
  ⟨stands rfl, rfl, rfl, by unfold JournalLaw; decide,
    ⟨by unfold TagForm; decide, small_bases, by decide, by decide, by decide, by decide⟩, by decide⟩

/-- R76: the acknowledged copy-last block makes a COPYING window IN_STEP, an earlier block does not, and a DESYNC window
stays as it is. -/
theorem test_copy_acknowledged :
    let states (a : SeqNo) (x : JournalState) :=
      ((after (.ackReceived a) (copying x)).journals.states[2], (after (.ackReceived a) (copying x)).journals.states[3])
    states 1 .desync = (some (.copying 8), some .desync) ∧ states 2 .desync = (some .inStep, some .desync) ∧
    states 3 .desync = (some .inStep, some .desync) ∧ states 3 (.copying 4) = (some .inStep, some .inStep) := by
  decide +kernel

/-- HANDOVER in flight in closing. -/
def handing : State :=
  { closing with
    link := { closing.link with nextSeq := 1 }
    disp := { closing.disp with inFlight := [⟨0, .control (.handover 1), none, true, none⟩] } }

theorem wit_AppliedResolved_handoff :
    RoleLaw handing ∧ handing.link.state = .up ∧ handing.rc.role = .handoff ∧ handing.rc.closing = true ∧
    transmittedCount handing.disp = 1 ∧ ((1 : SeqNo) - oldestSeq handing).toNat = 1 ∧
    handing.disp.inFlight.take 1 = [⟨0, .control (.handover 1), none, true, none⟩] ∧
    (let s : State := { flying with rc := handoff.rc, csu := handoff.csu }
     FlightLaw s ∧ JournalLaw s ∧ s.rc.role = .handoff ∧ s.rc.closing = false) :=
  ⟨by constructor <;> (try unfold ClaimLaw) <;> decide, rfl, rfl, rfl, rfl, rfl, rfl,
    ⟨flying_flight.form, flying_flight.bases, flying_flight.inUse, flying_flight.once, flying_flight.flying,
      flying_flight.listed⟩, ⟨flying_journal.1, flying_journal.2⟩, rfl, rfl⟩
theorem wit_NakGoesBack :
    flying.link.state = .up ∧ FlightLaw flying ∧ SequenceLaw flying ∧ JournalLaw flying ∧
    ((0 : SeqNo) - oldestSeq flying).toNat < transmittedCount flying.disp ∧
    ((1 : SeqNo) - oldestSeq flying).toNat < transmittedCount flying.disp ∧
    transmittedCount flying.disp ≤ ((2 : SeqNo) - oldestSeq flying).toNat :=
  ⟨rfl, flying_flight, flying_sequence, flying_journal, by decide⟩

/-- The part `flying` while it sends the journal word of its entry with number 1. -/
def sendingWord : State :=
  withLink (fun l => { l with sending := some ⟨.sequenced ⟨1, .journalWord 2 1 255 0⟩, false⟩ }) flying

/-- Entries removed with and without the one of the frame being sent. -/
theorem wit_NakGoesBack_sending :
    sendingWord.link.sending = some ⟨.sequenced ⟨1, .journalWord 2 1 255 0⟩, false⟩ ∧
    (∃ y ∈ sendingWord.disp.inFlight.drop 0, y.seq = 1) ∧
    (∀ y ∈ ({ flying.disp with inFlight := flying.disp.inFlight.take 1 } : Dispatcher).inFlight, y.seq ≠ 1) := by decide

/-- R56, R59: a frame that has been sent by the next frame boundary is not cut by a later go-back, and leaves nothing on the
cable; neither does a go-back cut a frame whose entry stays. -/
theorem test_whole_frame_not_cut :
    (after .frameTransmitStart sendingWord).link.sending = none ∧
    (after (.nakReceived 0) (after .frameTransmitStart sendingWord)).link.sending = none ∧
    cableFrame (after (.nakReceived 0) (after .frameTransmitStart sendingWord)).link = [] ∧
    (after (.nakReceived 1) (withLink (fun l => { l with sending := some ⟨.sequenced ⟨0, .tombstone 0 1⟩, false⟩ })
      flying)).link.sending = some ⟨.sequenced ⟨0, .tombstone 0 1⟩, false⟩ := by decide +kernel

/-- A frame of an unknown record, one taken outside STANDBY, the expected one, one at a full queue, an old one, a gap
and one exactly 32,768 away. -/
theorem wit_SequencedJudged :
    checksFrames standby.link = true ∧ peerSilent standby = false ∧ standby.link.incoming = none ∧
    namesKnown small (.tombstone 0 5) = false ∧ namesKnown small (.tombstone 0 4) = true ∧
    namesKnown small (.journalBlock 2 4 true 0 0 0 0) = true ∧ namesKnown small (.journalBlock 2 8 true 0 0 0 0) = false ∧
    namesKnown small (.journalBlock 2 2 true 0 0 0 0) = false ∧ namesKnown small (.journalWord 2 8 1 0) = false ∧
    namesKnown small (.journalWord 2 7 1 0) = true ∧ namesKnown small (.record 0 4 [1, 2, 3]) = false ∧
    namesKnown small (.record 2 0 [1, 2, 3, 4]) = false ∧
    immediate (.tombstone 0 4) = false ∧
    active.rc.role ≠ .standby ∧ checksFrames active.link = true ∧ peerSilent active = false ∧
    standby.rc.role = .standby ∧ standby.link.state = .up ∧ standby.link.view = .paired ∧
    ((0 : SeqNo) - standby.link.expected).toNat = 0 ∧ standby.apply.queue.length < 16 ∧ applying.apply.queue ≠ [] ∧
    ((65535 : SeqNo) - applying.link.expected).toNat = 65535 ∧ ((1 : SeqNo) - applying.link.expected).toNat = 1 ∧
    ((32767 : SeqNo) - applying.link.expected).toNat = 32767 ∧
    ((32769 : SeqNo) - applying.link.expected).toNat = 32769 ∧
    ((32768 : SeqNo) - applying.link.expected).toNat = 32768 ∧
    16 ≤ ({ standby with apply := { standby.apply with queue := List.replicate 16 ⟨0, .tombstone 0 4⟩ } } :
      State).apply.queue.length := by decide

theorem wit_InvalidDropped :
    StallStands active ∧ (∀ n, n ≤ [3, 0, 0].length → lengthOf (([3, 0, 0] : List Byte).take n) ≠ some n) ∧
    checksFrames active.link = true ∧ inInit.link.state = .off ∧ (linkIn .train id).link.state = .train ∧
    (linkIn .train id).link.aligned = false ∧ parseFrame (frameBytes (.ack 5)) false = some (.ack 5) ∧
    (lengthOf (List.replicate 12 3) = some 12 ∧
      fieldAt (List.replicate 12 3) 8 4 ≠ (crc (List.replicate 8 3)).toNat) ∧
    (lengthOf (6 :: 9 :: List.replicate 10 0) = some 12 ∧ fieldAt (6 :: 9 :: List.replicate 10 0) 0 1 = 6 ∧
      8 ≤ fieldAt (6 :: 9 :: List.replicate 10 0) 1 1) :=
  ⟨stands rfl, by decide +kernel⟩
theorem wit_InvalidDropped_kinds :
    parseFrame (frameBytes (.nak 3)) false = some (.nak 3) ∧
    parseFrame (frameBytes (.heartbeat ⟨.active, .inSync, 1, 0, 7⟩)) false =
      some (.heartbeat ⟨.active, .inSync, 1, 0, 7⟩) ∧
    parseFrame (frameBytes (.sequenced ⟨413, .syncDone 2⟩)) false = some (.sequenced ⟨413, .syncDone 2⟩) := by
  decide +kernel
set_option maxRecDepth 20000 in
theorem wit_InvalidDropped_hello : parseFrame (frameBytes (.hello peerHello)) false = some (.hello peerHello) := by
  decide +kernel

/-- A period with a frame, a silent one below M, one at M, and the one that reaches M in ACTIVE, in STANDBY in each
mode, and with entries to apply, and in HANDOFF before closing and in it, with each peer claim. -/
theorem wit_MissCounter :
    StallStands active ∧ active.link.periodClock ≠ none ∧
    (withLink (fun l => { l with frameInPeriod := true }) active).link.frameInPeriod = true ∧
    1 ≤ active.csu.timing.missLimit ∧ active.link.missCount + 1 < active.csu.timing.missLimit ∧
    (withLink (fun l => { l with missCount := 3 }) active).link.missCount = active.csu.timing.missLimit ∧
    (withLink (fun l => { l with missCount := 2 }) active).link.missCount + 1 = active.csu.timing.missLimit ∧
    active.link.view ≠ .lost ∧
    (withLink (fun l => { l with missCount := 2, view := .lost, state := .train }) active).link.view = .lost ∧
    standby.rc.role = .standby ∧ standby.csu.timing.takeoverAuto = true ∧
    standby.rc.claimIn = false ∧ standby.apply.queue = [] ∧ applying.apply.queue ≠ [] :=
  ⟨stands rfl, by decide⟩
/-- INCOMPATIBLE with 2 silent periods behind it and the period clock at `n` ticks. -/
def silentAt (n : Nat) : State :=
  withLink (fun l => { l with state := .incompatible, view := .interrupted, missCount := 2, periodClock := some n }) standby

/-- A frame at the instant of a boundary, in a period without a frame. -/
theorem wit_MissCounter_boundary :
    let s := silentAt 100000
    StallStands s ∧ s.link.periodClock = some 100000 ∧ 1000 * s.csu.timing.heartbeatMs ≤ 100000 ∧ s.link.state ≠ .up ∧
    checksFrames s.link = true ∧ s.link.incoming = none ∧ s.link.missCount ≤ s.csu.timing.missLimit ∧
    s.link.frameInPeriod = false :=
  ⟨stands rfl, by decide⟩

/-- R102: a frame at the instant of the boundary counts for the period that begins there, and the loss comes; one tick
earlier it counts for the period that ends there. -/
theorem test_frame_at_boundary :
    let passed (n : Nat) : Link := (after .heartbeatPeriodBoundary (after (.nakReceived 0) (silentAt n))).link
    ((passed 100000).view, (passed 100000).missCount, (passed 100000).frameInPeriod) = (.lost, 3, true) ∧
    ((passed 99999).view, (passed 99999).missCount, (passed 99999).frameInPeriod) = (.interrupted, 0, false) := by
  decide +kernel

theorem wit_MissCounter_handoff :
    (RoleLaw handoff ∧ StallStands handoff ∧ handoff.link.state = .up ∧ handoff.rc.closing = false) ∧
    (RoleLaw closing ∧ StallStands closing ∧ closing.link.state = .up ∧ closing.rc.closing = true ∧
      closing.csu.timing.takeoverAuto = true ∧ closing.rc.claimIn = false) ∧
    (let s := withLink (fun l => { l with missCount := 2 }) closing
     s.link.periodClock ≠ none ∧ s.link.missCount + 1 = s.csu.timing.missLimit ∧ s.link.view ≠ .lost ∧
      s.link.frameInPeriod = false) ∧
    ({ closing.csu.timing with takeoverAuto := false } : Timing).takeoverAuto = false :=
  ⟨⟨role_handoff, stands rfl, rfl, rfl⟩, ⟨role_closing, stands rfl, rfl, rfl, rfl, rfl⟩, by decide⟩

/-- Each control arm, a journal entry, a record, and nothing to start. -/
theorem wit_ItemStarted :
    (active.link.state = .up ∧ active.link.view = .paired ∧ active.link.peer.role = .standby ∧ active.rc.role = .active ∧
      active.disp.seqClosed = false ∧ active.disp.inFlight.length < 16) ∧
    ({ active with disp := { active.disp with syncBeginArm := true } } : State).disp.syncBeginArm = true ∧
    ({ active with disp := { active.disp with syncDoneArm := true } } : State).disp.syncDoneArm = true ∧
    ({ active with disp := { active.disp with handoverArm := true } } : State).disp.handoverArm = true ∧
    chooseItem { active with journals := { active.journals with queue := [⟨.word 2 1 0 255, false⟩] } } =
      some (.journal (.word 2 1 0 255)) ∧
    chooseItem { active with rts := { active.rts with tags := [(4, ⟨.dirty, true⟩)] } } = some (.record 0 4) ∧
    chooseItem active = none ∧
    chooseItem { active with journals := { active.journals with queue := [⟨.block 2 4 true, false⟩] } } =
      some (.journal (.block 2 4 true)) ∧
    ∀ r : Fin 4, ({ active.disp with readouts := Vector.replicate 4 (some ⟨0, .record 0 1, true, [], 0⟩) } :
      Dispatcher).readouts[r] ≠ none := by decide +kernel
theorem wit_ItemStarted_laws :
    JournalLaw { active with journals := { active.journals with queue := [⟨.block 2 4 true, false⟩] } } ∧
    JournalLaw { active with journals := { active.journals with queue := [⟨.word 2 1 0 255, false⟩] } } ∧
    TagForm { active with rts := { active.rts with tags := [(4, ⟨.dirty, true⟩)] } } := by
  unfold JournalLaw TagForm; decide

/-- The unsent head of the Journal Queue is chosen over a DIRTY record of its own priority, behind a sent entry. -/
theorem wit_ItemStarted_journal :
    let s : State := { active with
      rts := { active.rts with tags := [(6, ⟨.dirty, true⟩)] }
      journals := { active.journals with queue := [⟨.word 2 1 0 255, true⟩, ⟨.word 2 2 0 255, false⟩] } }
    (∃ before after, s.journals.queue = before ++ ⟨.word 2 2 0 255, false⟩ :: after ∧ ∀ y ∈ before, y.sent = true) ∧
    journalAt s.windows 2 = some ⟨64, 8, 2⟩ ∧
    (∀ (j : Slot) v, recordAt s.windows j = some v → 2 < v.priority →
      ∀ x, x < v.count → (tagAt s.rts (v.tagBase + x)).state ≠ .dirty) ∧
    chooseItem s = some (.journal (.word 2 2 0 255)) :=
  ⟨⟨[⟨.word 2 1 0 255, true⟩], [], rfl, by decide⟩, by decide, records_of (by decide), by decide +kernel⟩

/-- Two windows of priority 3 with DIRTY records, the round-robin pointer at slot 0, and a journal head of priority 1:
slot 1 is served. -/
theorem wit_ItemStarted_record :
    let s : State := { active with
      windows := small.set 1 (.record ⟨32, 4, 5, 3, 0, 1, true, 5⟩)
      rts := { active.rts with tags := [(1, ⟨.dirty, true⟩), (6, ⟨.dirty, true⟩)] }
      disp := { active.disp with roundRobin := active.disp.roundRobin.set 3 0 }
      journals := { active.journals with queue := [⟨.word 3 1 0 255, false⟩] } }
    (∀ e v, (∃ before after, s.journals.queue = before ++ ⟨e, false⟩ :: after ∧ ∀ y ∈ before, y.sent = true) →
      journalAt s.windows e.slot = some v → v.priority < 3) ∧
    (∀ (j : Slot) v, recordAt s.windows j = some v →
      3 < v.priority ∨ (v.priority = 3 ∧
        (j.val + 7 - (s.disp.roundRobin[(3 : Fin 4)]).val) % 8 <
          ((1 : Slot).val + 7 - (s.disp.roundRobin[(3 : Fin 4)]).val) % 8) →
      ∀ x, x < v.count → (tagAt s.rts (v.tagBase + x)).state ≠ .dirty) ∧
    recordAt s.windows 1 = some ⟨32, 4, 5, 3, 0, 1, true, 5⟩ ∧ (tagAt s.rts (5 + 1)).state = .dirty ∧
    s.rts.pointers[(1 : Slot)] < 5 ∧
    (∀ x, x < 5 → (x + 5 - s.rts.pointers[(1 : Slot)]) % 5 < (1 + 5 - s.rts.pointers[(1 : Slot)]) % 5 →
      (tagAt s.rts (5 + x)).state ≠ .dirty) ∧
    chooseItem s = some (.record 1 1) := by
  refine ⟨?_, records_of (by decide), by decide, by decide, by decide, by decide, by decide +kernel⟩
  rintro e v ⟨before, after, h, -⟩ hv
  cases before with
  | nil =>
    injection h with h1
    injection h1 with h2
    subst h2
    exact (by decide : ∀ y, journalAt (small.set 1 (.record ⟨32, 4, 5, 3, 0, 1, true, 5⟩)) 3 = some y → y.priority < 3) v hv
  | cons y ys => simp at h

/-- A slot that the readout class is given. -/
theorem wit_ReadoutWord :
    (let s : State := { reading 0 with csu := { active.csu with postQueue := [] } }
     s.rc.bclkQuiet = none ∧ nextClass s = some .readout ∧
      readingEntry s.disp = some ⟨0, .record 0 1, none, false, some 0⟩ ∧
      s.disp.readouts[0] = some ⟨0, .record 0 1, true, [], 0⟩ ∧
      readoutAddr s.windows ⟨0, .record 0 1, true, [], 0⟩ = some 4) ∧
    (⟨0, 16, 5, 3, 0, 15, true, 0⟩ : RecordWindow).stateWord < 16 := by decide

/-- A copy that begins; one that may not; a block to insert at the last place and none left. -/
theorem wit_CopyBegins :
    (let s : State := { active with journals := journalsAt .desync }
     s.journals.states[2] = some .desync ∧ s.link.state = .up ∧ s.rc.role = .active) ∧
    active.journals.states[2] ≠ some .desync ∧
    (let s : State := { active with journals := journalsAt (.copying 4) }
     s.journals.states[2] = some (.copying 4) ∧ journalAt s.windows 2 = some ⟨64, 8, 2⟩ ∧
      s.journals.queue.length < 64 ∧
      ∀ j : Slot, j < 2 → s.journals.states[j] = none) ∧
    64 ≤ (queued 64).journals.queue.length := by decide +kernel

/-- STANDBY or TAKEOVER with the entry `b` at the head and `n` words written. -/
def applyingOf (r : Role) (b : SeqBody) (n : Nat) : State :=
  { standby with rc := roleIn r, apply := { standby.apply with queue := [⟨0, b⟩], written := n } }

/-- The first and last word of a record, a tombstone, a journal word, a journal block's last word, and TAKEOVER. A read is
held against the completing entry, and one against it and the entry behind it. -/
theorem wit_ApplyWrites :
    (applyingOf .standby (.record 0 4 [1, 2, 3, 4]) 3).apply.written + 1 = 4 ∧
    (applyingOf .standby (.record 0 4 [1, 2, 3, 4]) 0).apply.written + 1 < 4 ∧
    (nextWrite (applyingOf .standby (.record 0 4 [1, 2, 3, 4]) 3)) = some (16, 1) ∧
    (nextWrite (applyingOf .standby (.discard 0 4) 0)) = some (16, 0) ∧
    (nextWrite (applyingOf .takeover (.journalWord 2 7 0xFF 9) 0)) = some (71, 9) ∧
    (nextWrite (applyingOf .standby (.journalBlock 2 4 true 1 2 3 4) 3)) = some (71, 4) ∧
    peerSilent (applyingOf .standby (.discard 0 4) 0) = false ∧
    (applyingOf .standby (.discard 0 4) 0).rc.bclkQuiet = none ∧
    (applyingOf .standby (.discard 0 4) 0).bpt.held = .none ∧
    (let s (rest : List SeqFrame) : State := { applyingOf .takeover (.discard 0 4) 0 with
       bpt := { standby.bpt with held := .read 17 }
       apply := { standby.apply with queue := ⟨0, .discard 0 4⟩ :: rest } }
     covered (s []) 17 = true ∧
      ([⟨1, .tombstone 0 4⟩].any fun g : SeqFrame => coversAddr (s [⟨1, .tombstone 0 4⟩]).windows 17 g.body) = true ∧
      immediate (.tombstone 0 4) = false ∧ (s []).bpt.held = .read 17) := by decide

/-- R29, R144: the step in which the last covering entry leaves releases the read, before the promotion of that step, and
the read then returns memory, whatever covers its word by that time. -/
theorem test_read_released_at_departure :
    let s : State := { applyingOf .takeover (.discard 0 4) 0 with bpt := { standby.bpt with held := .read 17 } }
    let t := after .applyWordWrite s
    let u : State := { t with apply := { t.apply with queue := [⟨1, .tombstone 0 4⟩] }, mem := memWrite t.mem 17 ⟨5, 6⟩ }
    (t.rc.role, t.bpt.held) = (.active, .port ⟨false, 17, 0, 0, 0⟩) ∧
    ((after .heldReadRelease u).bpt.held, (after .heldReadRelease u).bpt.readData) = (.none, ⟨5, 6⟩) := by
  decide +kernel

/-- R107, R111: a JOURNAL_WORD with no byte set completes in the step that takes it, with no write. -/
theorem test_empty_mask :
    let t := after (.sequencedFrameReceived ⟨0, .journalWord 2 7 0 9⟩) standby
    (t.apply.counts[2], t.apply.queue, t.apply.applied, t.mem) = (1, [], 1, standby.mem) := by decide +kernel

/-- A merge read, and the write after it. -/
theorem wit_MergeThenWrite :
    (applyingOf .standby (.journalWord 2 7 0x0F 9) 0).apply.queue = ⟨0, .journalWord 2 7 0x0F 9⟩ :: [] ∧
    (0x0F : Byte) ≠ 0 ∧ (0x0F : Byte) ≠ 0xFF ∧ journalAt small 2 = some ⟨64, 8, 2⟩ ∧
    (applyingOf .standby (.journalWord 2 7 0x0F 9) 0).apply.merged = none ∧
    ({ standby.apply with merged := some (5, .uncorrectable) } : ApplyEngine).merged = some (5, .uncorrectable) ∧
    peerSilent (applyingOf .standby (.journalWord 2 7 0x0F 9) 0) = false ∧
    (applyingOf .standby (.journalWord 2 7 0x0F 9) 0).rc.closing = false ∧
    (applyingOf .standby (.journalWord 2 7 0x0F 9) 0).bpt.held = .none := by decide
/-- A part in role `r` that completes the head with its next write, with `rest` behind it. -/
def draining (r : Role) (p : PeerRecord) (rest : List SeqFrame) : State :=
  { applyingOf r (.discard 0 4) 0 with
    link := linkUp p
    apply := { standby.apply with queue := ⟨0, .discard 0 4⟩ :: rest } }

/-- The head's completion with control entries behind it: a STANDBY part that goes to TAKEOVER with an entry left, the sync
state of one beside a peer that claims nothing, one beside a peer that claims, and a TAKEOVER part that is promoted. -/
theorem wit_HeadLeaves :
    (let w := headDone (draining .standby ⟨.active, .inSync, 1, 0⟩ [⟨1, .handover 6⟩, ⟨2, .tombstone 0 3⟩])
       (entryApplied (draining .standby ⟨.active, .inSync, 1, 0⟩ [⟨1, .handover 6⟩, ⟨2, .tombstone 0 3⟩]) ⟨0, .discard 0 4⟩)
       [⟨1, .handover 6⟩, ⟨2, .tombstone 0 3⟩]
     w.rc.role = .takeover ∧ w.apply.queue ≠ []) ∧
    (let s := draining .standby ⟨.released, .inSync, 1, 0⟩ [⟨1, .syncBegin⟩]
     let w := headDone s (entryApplied s ⟨0, .discard 0 4⟩) [⟨1, .syncBegin⟩]
     peerSilent s = false ∧ s.rc.closing = false ∧ w.rc.role = .standby ∧ s.link.view = .paired ∧
      s.link.peer.role = .released ∧ w.rc.sync ≠ s.rc.sync) ∧
    (let s := draining .standby ⟨.active, .inSync, 1, 0⟩ [⟨1, .syncBegin⟩, ⟨2, .journalWord 2 7 0 9⟩]
     let w := headDone s (entryApplied s ⟨0, .discard 0 4⟩) [⟨1, .syncBegin⟩, ⟨2, .journalWord 2 7 0 9⟩]
     w.rc.role = .standby ∧ w.rc.sync = .syncing ∧ w.apply.queue = [] ∧ w.apply.applied = 3) ∧
    (let s := draining .takeover ⟨.active, .inSync, 1, 0⟩ [⟨1, .syncDone 5⟩, ⟨2, .handover 9⟩]
     let w := headDone s (entryApplied s ⟨0, .discard 0 4⟩) [⟨1, .syncDone 5⟩, ⟨2, .handover 9⟩]
     s.rc.closing = false ∧ w.rc.role = .takeover ∧ w.apply.queue = [] ∧ ClaimLaw s) := by
  unfold ClaimLaw; decide

/-- R104, R112, R113, R144: a SYNC_DONE and a HANDOVER behind the last memory entry of a TAKEOVER part are applied in the
step of its last write, and the promotion takes the E they leave. -/
theorem test_control_behind_entry :
    let t := after .applyWordWrite (draining .takeover ⟨.active, .inSync, 1, 0⟩ [⟨1, .syncDone 5⟩, ⟨2, .handover 9⟩])
    (t.rc.role, t.rc.epoch, t.rc.sync, t.pass.gen, t.apply.applied) = (.active, 10, .inSync, 5, 3) ∧
    t.apply.queue = [] := by decide +kernel

theorem wit_ControlEntriesApplied :
    standby.rc.role = .standby ∧ standby.link.state = .up ∧ standby.link.view = .paired ∧ standby.apply.queue = [] ∧
    (⟨0, .syncDone 3⟩ : SeqFrame).seq = standby.link.expected ∧ standby.link.peer.role = .active ∧
    standby.link.incoming = none ∧ journalAt standby.windows 2 = some ⟨64, 8, 2⟩ ∧ (7 : BitVec 16).toNat < 8 ∧
    ReadLaw standby ∧ (immediate (.syncDone 3) = true ∧ namesKnown standby.windows (.syncDone 3) = true ∧
      standby.rc.closing = false ∧ ({ standby with link := linkUp ⟨.released, .inSync, 1, 0⟩ } : State).link.view = .paired) :=
  ⟨rfl, rfl, rfl, rfl, rfl, rfl, rfl, by decide, by decide, no_read rfl, by decide⟩

/-- The Pass Engine in phase `x` at step `i`, with a refresh pass at step `j`. -/
def passing (x : SyncPhase) (i j : Nat) : State :=
  { active with
    pass := { active.pass with phase := x, syncPos := i, refreshing := true, refreshPos := j, refreshClock := 2000000 } }

/-- The last step of each pass, the completion, and the end of a refresh pass; a DEMAND sync at its backlog limit and
a PACED one. -/
theorem wit_PassSteps :
    ((passing .passing 9 9).pass.phase = .passing ∧ 9 < totalRecords small ∧
      (passing .passing 9 9).csu.timing.syncMode = .demand 32 ∧
      dirtyTotal (passing .passing 9 9).rts + flightTotal (passing .passing 9 9).rts < 32) ∧
    (passing .passing 9 9).rts.outstanding = 0 ∧
    (∀ k : Slot, (passing .passing 9 9).journals.states[k] ≠ some .desync ∧
      isCopying (passing .passing 9 9).journals.states[k] = false) ∧
    active.pass.phase ≠ .passing ∧ 9 < refreshTotal small ∧
    visitOffset (refreshTotal small) (1000 * active.csu.timing.refreshMs) 9 ≤ 2000000 ∧
    refreshTotal small ≤ (passing .none 0 10).pass.refreshPos ∧
    visitOffset 10 (1000000 * 1) 0 ≤ 0 := by decide +kernel

/-- A level that stays, a level that changes, a LOST peer whose claim goes, a running dual-claim timer on each unit, a
handoff timer, and two claims in a HELLO. -/
theorem wit_TwoClaims :
    RoleLaw active ∧ StallStands active ∧ (true ≠ active.rc.claimIn) ∧
    (let s : State := { alone with rc := { roleIn .standby with claimIn := true } }
     RoleLaw s ∧ s.rc.claimIn = true ∧ s.rc.role = .standby ∧ s.link.view = .lost ∧ s.csu.timing.takeoverAuto = true ∧
      s.apply.queue = []) ∧
    (let s : State := { active with rc := { roleIn .active with claimIn := true, dual := .running 0 } }
     RoleLaw s ∧ s.rc.dual = .running 0 ∧ s.rc.unit = .a) ∧
    (let s : State :=
      { active with
        link := linkUp ⟨.active, .inSync, 1, 0⟩
        rc := { roleIn .active with claimIn := true, dual := .running 0, unit := .b } }
     RoleLaw s ∧ s.rc.dual = .running 0 ∧ s.rc.unit = .b ∧ s.link.peer.role = .active) ∧
    RoleLaw handoff ∧ handoff.rc.closing = false ∧ handoff.rc.handoff ≠ none := by
  refine ⟨role_active, stands rfl, by decide, ⟨?_, by decide⟩, ⟨?_, by decide⟩, ⟨?_, by decide⟩, role_handoff,
    by decide⟩ <;> constructor <;> (try unfold ClaimLaw) <;> decide

/-- A part that claims as the unit `u` in the link state `x`, with the view `v`; `o`: its own HELLO has said seen. -/
def claiming (u : UnitId) (x : LinkState) (v : PeerView) (o : Bool) : State :=
  { active with
    rc := { roleIn .active with unit := u }
    link := { State.reset.link with state := x, view := v, helloSeenOut := o, periodClock := some 0 } }

/-- A HELLO that claims, from the unit `u`. -/
def claimHello (u : UnitId) : HelloFrame := ⟨u, .active, .inSync, 7, 0, true, tableGeometry small⟩

theorem role_claiming : RoleLaw (claiming .b .hello .interrupted false) ∧
    RoleLaw (claiming .b .hello .lost false) ∧ RoleLaw (claiming .a .hello .interrupted true) ∧
    RoleLaw (claiming .b .up .paired true) := by
  refine ⟨?_, ?_, ?_, ?_⟩ <;> constructor <;> (try unfold ClaimLaw) <;> decide

/-- Two claims at a HELLO in HELLO, with a check that passes and one that fails, before the move to UP, at it, and with
a silent peer; and in UP, in ACTIVE, in HANDOFF and in closing. -/
theorem wit_TwoClaims_hello :
    (let s := claiming .b .hello .interrupted false
     StallStands s ∧ claims (claimHello .a).role = true ∧ claims s.rc.role = true ∧ s.link.incoming = none ∧
      s.link.view ≠ .paired ∧ s.link.helloSeenOut ≠ true ∧ (claimHello .a).geometry = tableGeometry s.windows ∧
      (claimHello .a).unit ≠ s.rc.unit ∧ ¬ (claimHello .b).unit ≠ s.rc.unit) ∧
    (let s := claiming .b .hello .lost false
     StallStands s ∧ s.link.view = .lost ∧ s.csu.timing.takeoverAuto = true ∧ s.rc.claimIn = false ∧ s.bpt.waitCount < 32) ∧
    (let s := claiming .a .hello .interrupted true
     StallStands s ∧ s.link.helloSeenOut = true ∧ (s.link.helloSeenIn || (claimHello .b).seen) = true ∧
      (claimHello .b).unit ≠ s.rc.unit ∧ ¬ (claimHello .a).unit ≠ s.rc.unit) ∧
    (let s := claiming .b .up .paired true
     StallStands s ∧ s.link.state = .up ∧ s.rc.role = .active ∧ s.link.peer.role ≠ .standby) ∧
    (active.link.state = .up ∧ active.link.view = .paired ∧ active.rc.unit = .a ∧ active.link.peer.role = .standby ∧
      closing.rc.unit = .a) ∧
    (StallStands handoff ∧ claims handoff.rc.role = true ∧ handoff.link.peer.role = .standby) ∧
    (RoleLaw closing ∧ StallStands closing ∧ claims closing.rc.role = true ∧ closing.rc.closing = true) := by
  refine ⟨⟨stands rfl, ?_⟩, ⟨stands rfl, ?_⟩, ⟨stands rfl, ?_⟩, ⟨stands rfl, ?_⟩, ?_, ⟨stands rfl, ?_⟩,
    ⟨role_closing, stands rfl, ?_⟩⟩ <;> decide

/-- Unit B in two claims with a journal write stalled on `n` queued entries. -/
def yielding (n : Nat) : State :=
  { stalled n with
    link := linkUp ⟨.active, .inSync, 1, 0⟩
    rc := { roleIn .active with claimIn := true, dual := .running 0, unit := .b } }

theorem wit_TwoClaims_stalled :
    RoleLaw (yielding 128) ∧ StallStands (yielding 128) ∧ (yielding 128).rc.dual = .running 0 ∧
    (yielding 128).rc.unit = .b ∧ (yielding 128).bpt.held = .stall ⟨true, 65, 7, 9, 255⟩ 3 ∧
    (yielding 128).link.peer.role = .active ∧ claims (yielding 128).rc.role = true ∧
    (yielding 128).link.state = .up ∧ (yielding 128).link.view = .paired := by
  refine ⟨?_, stands_of rfl (by decide +kernel) (by decide +kernel), rfl, rfl, rfl, rfl, rfl, rfl, rfl⟩
  constructor <;> (try unfold ClaimLaw) <;> decide +kernel

/-- R27, R72: a demotion suppresses a write that is stalled, and one for which room has appeared is taken first. -/
theorem test_demotion_and_room :
    ((after .dualClaimTimerExpiry (yielding 128)).bpt.suppressed,
      memRead (after .dualClaimTimerExpiry (yielding 128)).mem 65) = (1, ⟨0, 0⟩) ∧
    ((after .dualClaimTimerExpiry (yielding 127)).rc.role, (after .dualClaimTimerExpiry (yielding 127)).bpt.suppressed,
      memRead (after .dualClaimTimerExpiry (yielding 127)).mem 65) = (.standby, 0, ⟨7, 9⟩) := by decide +kernel

/-- R151: a HELLO that claims demotes unit B, in HELLO as in UP, whether or not it passes its check, and unit A stands. -/
theorem test_hello_two_claims :
    (after (.helloReceived (claimHello .a)) (claiming .b .hello .interrupted false)).rc.role = .standby ∧
    (after (.helloReceived (claimHello .b)) (claiming .b .hello .interrupted false)).rc.role = .standby ∧
    (after (.helloReceived (claimHello .a)) (claiming .b .up .paired true)).rc.epoch = 7 ∧
    (after (.helloReceived (claimHello .b)) (claiming .a .hello .interrupted true)).rc.role = .active ∧
    (after (.helloReceived (claimHello .b)) (claiming .a .hello .interrupted true)).link.state = .up := by
  decide +kernel

/-- A running liveness timer in each mode, over a stalled write and over a held read, a watched clock in a role that holds
and in RELEASED, and a lost clock with an access that waits for it. -/
theorem wit_HostMonitors :
    RoleLaw active ∧ StallStands active ∧ ReadLaw active ∧
    (let s : State := { stalled 128 with rc := { (stalled 128).rc with liveness := some 3 } }
     StallStands s ∧ ReadLaw s ∧ s.rc.liveness ≠ none ∧ s.rc.busClock = .present ∧ s.rc.role = .active ∧
      s.bpt.held = .stall ⟨true, 65, 7, 9, 255⟩ 3) ∧
    (let s : State := { applying with bpt := { applying.bpt with held := .read 4 } }
     RoleLaw s ∧ StallStands s ∧ ReadLaw s ∧ s.rc.busClock = .present ∧ s.rc.role = .standby) ∧
    ({ active with rc := { active.rc with liveness := some 3 } } : State).rc.liveness ≠ none ∧
    active.csu.timing.livenessRelease = false ∧
    ({ active.csu.timing with livenessRelease := true } : Timing).livenessRelease = true ∧
    active.rc.busClock = .present ∧ released.rc.busClock = .present ∧
    (let s : State :=
      { active with
        rc := { active.rc with busClock := .lost, bclkQuiet := some 100 }
        bpt := { active.bpt with held := .port ⟨true, 100, 7, 9, 255⟩ } }
     s.rc.busClock ≠ .present ∧ s.bpt.held = .port ⟨true, 100, 7, 9, 255⟩ ∧ s.bpt.waitCount < 32) := by
  refine ⟨role_active, stands rfl, no_read rfl,
    ⟨stands_of rfl (by decide +kernel) (by decide +kernel), no_read rfl, by decide, rfl, rfl, rfl⟩,
    ⟨?_, ⟨(by intro _ _ h; cases h), rfl⟩, read_of rfl (by decide), rfl, rfl⟩, by decide⟩
  constructor <;> (try unfold ClaimLaw) <;> decide

/-- A posting write with and without a held result, and one without BCLK. -/
theorem wit_Postings :
    nextClass { active with csu := { active.csu with postQueue := [⟨63, 0⟩] } } = some .status ∧
    active.rc.bclkQuiet = none ∧ ({ active.rc with bclkQuiet := some 7 } : RoleController).bclkQuiet ≠ none ∧
    (let s : State :=
      { active with csu := { active.csu with postQueue := [⟨2, resetWord2⟩, ⟨4, 1⟩], resultHold := some 5 } }
     nextClass s = some .status ∧ resetWord2.getLsbD 63 = true ∧ s.csu.resultHold = some 5 ∧ PostedLaw s ∧
      RoomLaw s) := by
  refine ⟨by decide, by decide, by decide, by decide, by decide, by decide, posted_of _ (by decide),
    by unfold RoomLaw; decide⟩
theorem wit_StateWordsPosted_layout :
    dirtyTotal flying.rts ≤ 65536 ∧ staleTotal flying.rts ≤ 65536 ∧ flying.disp.inFlight.length ≤ 16 ∧
    flying.journals.queue.length ≤ 128 ∧ flying.rts.outstanding ≤ 65536 ∧ flying.csu.discard.place < 65536 := by decide
theorem wit_StateWordsPosted :
    (ops 3 0 inInit).bpt.waitCount < 32 ∧ InterruptLaw (ops 3 0 inInit) ∧
    exec (.start 0 0 0) (ops 3 0 inInit) = .next (after (.start 0 0 0) (ops 3 0 inInit)) ∧
    statusWord (after (.start 0 0 0) (ops 3 0 inInit)) 0 ≠ statusWord (ops 3 0 inInit) 0 :=
  ⟨by decide, by unfold InterruptLaw; decide, rfl, by decide +kernel⟩
theorem wit_TagTable : TagForm flying ∧ TagForm State.reset := by unfold TagForm; decide
theorem wit_FrameRoundTrip :
    (⟨413, .record 2 17 [0, 0, 0, 0]⟩ : SeqFrame).body.sized = true ∧ (⟨413, .syncBegin⟩ : SeqFrame).body.sized = true := by
  decide

/-- Two entries in flight, the frame of one being sent, and the NAK of both in front of the queue. -/
def stepping : State :=
  { sendingWord with
    pending := [.nakReceived 0], csu := { flying.csu with postQueue := [⟨4, 0⟩] }
    bpt := { flying.bpt with offers := [.status 4] } }

theorem stepping_role : RoleLaw stepping := by constructor <;> (try unfold ClaimLaw) <;> decide
theorem stepping_runs : ∃ t, step stepping = .next t := ⟨_, rfl⟩

theorem wit_BasicLawsKept :
    MemoryLaw stepping ∧ InterruptLaw stepping ∧ RoomLaw stepping ∧ PostedLaw stepping ∧ OffersLaw stepping ∧
    ∃ t, step stepping = .next t := by
  refine ⟨by unfold MemoryLaw; decide, by unfold InterruptLaw; decide, by unfold RoomLaw; decide +kernel,
    posted_of _ (by decide), offers_law (by decide) (by decide) (by decide) (by decide), stepping_runs⟩
theorem wit_RoleKept :
    RoleLaw stepping ∧ LinkLaw stepping ∧ StallLaw stepping ∧ ReadLaw stepping ∧
    (SendingLaw stepping ∧ stepping.link.sending ≠ none) ∧ ∃ t, step stepping = .next t :=
  ⟨stepping_role, by unfold LinkLaw; decide, no_stall rfl, no_read rfl, ⟨by unfold SendingLaw; decide, by decide⟩,
    stepping_runs⟩
theorem wit_WindowKept : RoleLaw stepping ∧ WindowLaw stepping ∧ ∃ t, step stepping = .next t :=
  ⟨stepping_role, ⟨small_table, trivial⟩, stepping_runs⟩
theorem wit_TagsKept :
    RoleLaw stepping ∧ LinkLaw stepping ∧ WindowLaw stepping ∧ CoverLaw stepping ∧ FlightLaw stepping ∧
    ∃ t, step stepping = .next t :=
  ⟨stepping_role, by unfold LinkLaw; decide, ⟨small_table, trivial⟩, by unfold CoverLaw TagForm; decide,
    ⟨flying_flight.form, flying_flight.bases, flying_flight.inUse, flying_flight.once, flying_flight.flying,
      flying_flight.listed⟩, stepping_runs⟩
theorem wit_SendingKept :
    RoleLaw stepping ∧ SequenceLaw stepping ∧ JournalLaw stepping ∧ ∃ t, step stepping = .next t :=
  ⟨stepping_role, ⟨flying_sequence.room, flying_sequence.numbered, flying_sequence.front⟩,
    ⟨flying_journal.1, flying_journal.2⟩, stepping_runs⟩
/-- A readout slot that is read, with its entry. -/
theorem wit_SendingKept_readout :
    let s : State := { readingAlone with pending := [.readoutRead] }
    RoleLaw s ∧ SequenceLaw s ∧ JournalLaw s ∧ ReadoutLaw s ∧ ∃ t, step s = .next t :=
  ⟨by constructor <;> (try unfold ClaimLaw) <;> decide,
    ⟨by decide, by decide, fun i j hj hi _ => absurd hj (by simp only [readingAlone, reading, List.length_singleton]; omega)⟩,
    by unfold JournalLaw; decide, ⟨readingAlone_readouts.named, readingAlone_readouts.owned⟩, _, rfl⟩

end Sys2Proof.Tests
end

section
/-! The Window Table: a slot replaced, the totals, and the law of the table. -/

namespace Sys2Proof.Machine

/-! ## Lists of slots -/

theorem allSlots_nodup : allSlots.Nodup := by decide

@[simp] theorem Window.withTagBase_records (b : Nat) (w : Window) : (w.withTagBase b).records = w.records := by
  cases w <;> rfl

@[simp] theorem Window.withTagBase_base (b : Nat) (w : Window) : (w.withTagBase b).base = w.base := by
  cases w <;> rfl

@[simp] theorem Window.withTagBase_words (b : Nat) (w : Window) : (w.withTagBase b).words = w.words := by
  cases w <;> rfl

/-- The tag base plays no part in what is legal (R6, R7). -/
@[simp] theorem Window.withTagBase_legal (b : Nat) (w : Window) : (w.withTagBase b).legal ↔ w.legal := by
  cases w <;> rfl

/-- The tag base plays no part in an overlap (R9). -/
@[simp] theorem Window.withTagBase_overlaps (a b : Nat) (v w : Window) :
    (v.withTagBase a).overlaps (w.withTagBase b) = v.overlaps w := by
  simp [Window.overlaps]

theorem Window.overlaps_comm (v w : Window) : v.overlaps w = w.overlaps v := by
  simp only [Window.overlaps, decide_eq_decide]
  omega

/-- An empty slot overlaps nothing (R9). -/
@[simp] theorem Window.overlaps_none (v : Window) : v.overlaps .none = false := by
  simp [Window.overlaps, Window.words]

/-- A sum over slots depends on the values at those slots alone. -/
theorem sumSlots_congr (f : Window → Nat) {t u : Vector Window 8} {l : List Slot}
    (h : ∀ i ∈ l, f t[i] = f u[i]) : sumSlots f t l = sumSlots f u l :=
  congrArg List.sum (List.map_congr_left h)

/-- The sum over all slots is that over the others and the slot's own value. -/
theorem sumSlots_split (f : Window → Nat) (t : Vector Window 8) (k : Slot) :
    sumSlots f t allSlots = sumSlots f t (allSlots.filter fun i => decide (i ≠ k)) + f t[k] := by
  have hf : (allSlots.filter fun i => decide (i ≠ k)) = allSlots.erase k := by
    rw [allSlots_nodup.erase_eq_filter]
    exact List.filter_congr fun i _ => by by_cases h : i = k <;> simp [h]
  rw [hf, Nat.add_comm]
  exact (List.sum_map_erase (fun i : Slot => f t[i]) (mem_allSlots k)).symm

/-! ## A slot replaced -/

/-- The table with one slot replaced, place by place. -/
theorem getElem_setSlot (t : Vector Window 8) (k i : Slot) (w : Window) :
    (t.set k w)[i] = if i = k then w else t[i] := by
  simp only [Fin.getElem_fin, Vector.getElem_set, Fin.val_inj, eq_comm]

/-- A slot of the table with its tag bases recomputed (R3). -/
theorem getElem_recomputeTagBases (t : Vector Window 8) (i : Slot) :
    (recomputeTagBases t)[i] = (t[i]).withTagBase (tagBaseOf t i) := by
  simp [recomputeTagBases]

theorem tagBaseOf_recompute (t : Vector Window 8) (k : Slot) : tagBaseOf (recomputeTagBases t) k = tagBaseOf t k :=
  sumSlots_congr _ fun i _ => by rw [getElem_recomputeTagBases, Window.withTagBase_records]

theorem totalRecords_recompute (t : Vector Window 8) : totalRecords (recomputeTagBases t) = totalRecords t :=
  sumSlots_congr _ fun i _ => by rw [getElem_recomputeTagBases, Window.withTagBase_records]

/-- The slots of a table with one replaced: the new window in its place, the others as they were, each with the tag base that
R3 gives it (R3, R10, R11). -/
theorem getElem_replaceSlot (t : Vector Window 8) (k i : Slot) (w : Window) :
    (replaceSlot t k w)[i] = (if i = k then w else t[i]).withTagBase (tagBaseOf (replaceSlot t k w) i) := by
  rw [replaceSlot, getElem_recomputeTagBases, tagBaseOf_recompute, getElem_setSlot]

/-- The total record count with one slot replaced: the others' and the new window's (R1). -/
theorem totalRecords_replaceSlot (t : Vector Window 8) (k : Slot) (w : Window) :
    totalRecords (replaceSlot t k w) = otherRecords t k + w.records := by
  rw [replaceSlot, totalRecords_recompute, totalRecords, sumSlots_split _ _ k, getElem_setSlot, if_pos rfl]
  congr 1
  refine sumSlots_congr _ fun i hi => ?_
  have hik : i ≠ k := by simpa using (List.mem_filter.1 hi).2
  rw [getElem_setSlot, if_neg hik]

/-- The records of the other slots are no more than all together. -/
theorem otherRecords_le (t : Vector Window 8) (k : Slot) : otherRecords t k ≤ totalRecords t := by
  rw [totalRecords, sumSlots_split _ _ k]
  exact Nat.le_add_right _ _

/-- Recomputed tag bases are those of R3. -/
theorem basesLaw_recompute (t : Vector Window 8) : BasesLaw (recomputeTagBases t) := by
  intro k w hw
  rw [tagBaseOf_recompute]
  unfold recordAt at hw
  rw [getElem_recomputeTagBases] at hw
  cases hk : t[k] <;> simp [hk, Window.withTagBase] at hw
  rw [← hw]

/-- A legal table stays legal when a slot takes a legal window that is apart from those of the other slots and within the
record total (R3, R6 to R11). -/
theorem tableLaw_replaceSlot {t : Vector Window 8} {k : Slot} {w : Window} (ht : TableLaw t) (hw : w.legal)
    (ha : ∀ i : Slot, i ≠ k → (t[i]).overlaps w = false) (hr : otherRecords t k + w.records ≤ Config.tagRoom) :
    TableLaw (replaceSlot t k w) where
  legal i := by
    rw [getElem_replaceSlot, Window.withTagBase_legal]
    split
    · exact hw
    · exact ht.legal i
  apart i j hij := by
    rw [getElem_replaceSlot, getElem_replaceSlot, Window.withTagBase_overlaps]
    by_cases hi : i = k
    · rw [if_pos hi, if_neg fun hj => hij (hi.trans hj.symm), Window.overlaps_comm]
      exact ha j fun hj => hij (hi.trans hj.symm)
    · rw [if_neg hi]
      split
      · exact ha i hi
      · exact ht.apart i j hij
  records := by rw [totalRecords_replaceSlot]; exact hr
  bases := basesLaw_recompute _

/-- Clearing a slot of a legal table leaves it legal (R11). -/
theorem tableLaw_clearSlot {t : Vector Window 8} (k : Slot) (ht : TableLaw t) : TableLaw (replaceSlot t k .none) :=
  tableLaw_replaceSlot ht trivial (fun _ _ => Window.overlaps_none _) ((otherRecords_le t k).trans ht.records)

end Sys2Proof.Machine
end

section
open Sys2Proof Sys2Proof.Machine
/-! The checks of DEFINE_WINDOW (R5 to R9). -/

namespace Sys2Proof.Machine

variable {t : Vector Window 8} {f : DefineFields}

/-! ## The legal fields -/

/-- What step 3 of R5 asks of a RECORD window (R6). -/
theorem DefineFields.recordLegal_iff :
    f.recordLegal = true ↔
      (f.size = 4 ∨ f.size = 8 ∨ f.size = 16) ∧ (1 ≤ f.count ∧ f.count ≤ 65536) ∧ f.base % f.size = 0 ∧
      f.stateWord < f.size ∧ f.volatileSet >>> f.size = 0 ∧ f.volatileSet.getLsbD f.stateWord = false ∧
      f.priority ≤ 3 := by
  simp only [DefineFields.recordLegal, Bool.and_eq_true, decide_eq_true_eq, Bool.not_eq_true', and_assoc]

/-- What step 3 of R5 asks of a JOURNAL window (R7). -/
theorem DefineFields.journalLegal_iff :
    f.journalLegal = true ↔
      (f.length % 4 = 0 ∧ 4 ≤ f.length ∧ f.length ≤ 8192) ∧ f.base % 4 = 0 ∧ f.priority ≤ 3 := by
  simp only [DefineFields.journalLegal, Bool.and_eq_true, decide_eq_true_eq, and_assoc]

/-- The fields are those of a window of their kind (steps 2 and 3 of R5). -/
def DefineFields.fieldsLegal (f : DefineFields) : Prop :=
  (f.kind = 1 ∧ f.recordLegal = true) ∨ (f.kind = 2 ∧ f.journalLegal = true)

theorem DefineFields.window_record (h : f.kind = 1) :
    f.window =
      .record
        { base := f.base, size := f.size, count := f.count, priority := Fin.ofNat 4 f.priority,
          volatileSet := f.volatileSet, stateWord := f.stateWord, refresh := f.refresh, tagBase := 0 } := by
  simp [DefineFields.window, h]

theorem DefineFields.window_journal (h : f.kind = 2) :
    f.window = .journal { base := f.base, length := f.length, priority := Fin.ofNat 4 f.priority } := by
  simp [DefineFields.window, h]

/-- Fields of a window of their kind that end below the status page describe a legal window (R6 to R8). -/
theorem DefineFields.window_legal (hf : f.fieldsLegal) (he : f.window.base + f.window.words ≤ Config.statusBase) :
    f.window ≠ .none ∧ f.window.legal := by
  rcases hf with ⟨hk, hl⟩ | ⟨hk, hl⟩
  · rw [window_record hk] at he ⊢
    obtain ⟨hs, ⟨h1, h2⟩, hb, hw, hv, hg, -⟩ := recordLegal_iff.1 hl
    exact ⟨by simp, hs, h1, h2, hb, hw, hv, hg, he⟩
  · rw [window_journal hk] at he ⊢
    obtain ⟨⟨h1, h2, h3⟩, hb, -⟩ := journalLegal_iff.1 hl
    exact ⟨by simp, h1, h2, h3, hb, he⟩

/-! ## The checks in their order -/

/-- Another slot's window overlaps `w` (step 6 of R5, R9). -/
theorem overlapsOther_iff {k : Slot} {w : Window} :
    overlapsOther t k w = true ↔ ∃ i : Slot, i ≠ k ∧ (t[i]).overlaps w = true := by
  simp [overlapsOther, mem_allSlots]

/-- Step 1 of R5. -/
theorem checkDefine_role {r : Role} (h : r ≠ .init) : checkDefine r t f = .error .wrongRole := by
  simp [checkDefine, h]

/-- Steps 2 and 3 of R5: the slot, the kind and the fields. -/
theorem checkDefine_fields (h : 7 < f.slot ∨ ¬ f.fieldsLegal) : checkDefine .init t f = .error .badArgument := by
  unfold checkDefine
  rw [if_neg (by simp)]
  by_cases hs : f.slot < 8
  · have hn : ¬ f.fieldsLegal := h.resolve_left (by omega)
    unfold DefineFields.fieldsLegal at hn
    rw [dif_pos hs]
    by_cases hk : f.kind ≠ 1 ∧ f.kind ≠ 2
    · rw [if_pos hk]
    · rw [if_neg hk]
      by_cases h1 : f.kind = 1
      · have hr : f.recordLegal = false := by simpa [h1] using hn
        simp [h1, hr]
      · have hj : f.journalLegal = false := by simpa [h1, show f.kind = 2 by omega] using hn
        simp [h1, hj]
  · rw [dif_neg hs]

/-- Steps 4 to 7 of R5, where the first three pass. -/
theorem checkDefine_legal (k : Slot) (hs : f.slot = k.val) (hf : f.fieldsLegal) :
    checkDefine .init t f =
      if Config.statusBase ≤ f.base then .error .overlap
      else if Config.statusBase < f.window.base + f.window.words then .error .badArgument
      else if overlapsOther t k f.window then .error .overlap
      else if f.kind = 1 ∧ Config.tagRoom < otherRecords t k + f.count then .error .capacity
      else .ok (k, f.window) := by
  have h8 : f.slot < 8 := hs ▸ k.isLt
  have hk : (⟨f.slot, h8⟩ : Slot) = k := Fin.ext hs
  unfold checkDefine
  rw [if_neg (by simp), dif_pos h8, hk]
  rcases hf with ⟨h1, hl⟩ | ⟨h2, hl⟩
  · simp [h1, hl]
  · simp [h2, hl]

section
variable {k : Slot} (hs : f.slot = k.val) (hf : f.fieldsLegal)
include hs hf

/-- Step 4 of R5: a base in the pages. -/
theorem checkDefine_base (hb : Config.statusBase ≤ f.base) : checkDefine .init t f = .error .overlap := by
  rw [checkDefine_legal k hs hf, if_pos hb]

/-- Step 5 of R5: a run into the status page. -/
theorem checkDefine_run (hb : f.base < Config.statusBase)
    (he : Config.statusBase < f.window.base + f.window.words) : checkDefine .init t f = .error .badArgument := by
  rw [checkDefine_legal k hs hf, if_neg (by omega), if_pos he]

variable (hb : f.base < Config.statusBase) (he : f.window.base + f.window.words ≤ Config.statusBase)
include hb he

/-- Step 6 of R5: an overlap with another window. -/
theorem checkDefine_overlap (ho : overlapsOther t k f.window = true) :
    checkDefine .init t f = .error .overlap := by
  rw [checkDefine_legal k hs hf, if_neg (by omega), if_neg (by omega), if_pos ho]

/-- Step 7 of R5, and the acceptance. -/
theorem checkDefine_capacity (ho : overlapsOther t k f.window = false) :
    checkDefine .init t f =
      if f.kind = 1 ∧ Config.tagRoom < otherRecords t k + f.count then .error .capacity else .ok (k, f.window) := by
  rw [checkDefine_legal k hs hf, if_neg (by omega), if_neg (by omega), ho, if_neg (by simp)]

end

/-- An accepted definition has passed every check: it is made in INIT and names its slot and its window, the fields are those
of a window of their kind, and the window lies below the pages, is apart from the others, and brings no more records than
are left (R5). -/
theorem checkDefine_accepted {r : Role} {k : Slot} {w : Window} (h : checkDefine r t f = .ok (k, w)) :
    r = .init ∧ k.val = f.slot ∧ w = f.window ∧ f.fieldsLegal ∧ w.base + w.words ≤ Config.statusBase ∧
    overlapsOther t k w = false ∧ (w.records = 0 ∨ otherRecords t k + w.records ≤ Config.tagRoom) := by
  have hr : r = .init := by
    by_contra hr
    simp [checkDefine_role hr] at h
  subst hr
  have hfields : ¬ (7 < f.slot ∨ ¬ f.fieldsLegal) := by
    intro hn
    simp [checkDefine_fields hn] at h
  rw [not_or, not_not] at hfields
  obtain ⟨hs, hf⟩ := hfields
  rw [checkDefine_legal ⟨f.slot, by omega⟩ rfl hf] at h
  split at h
  · cases h
  split at h
  · cases h
  split at h
  · cases h
  split at h
  · cases h
  rename_i hbase hend hover hroom
  cases h
  refine ⟨rfl, rfl, rfl, hf, by omega, by simpa using hover, ?_⟩
  rcases hf with ⟨h1, -⟩ | ⟨h2, -⟩
  · rw [DefineFields.window_record h1]
    exact .inr (Nat.le_of_not_lt fun hlt => hroom ⟨h1, hlt⟩)
  · rw [DefineFields.window_journal h2]
    exact .inl rfl

/-- What an accepted definition is: a legal window, apart from every other, whose completion leaves a legal table legal
(R3, R5 to R10). -/
theorem checkDefine_ok {r : Role} {k : Slot} {w : Window} (h : checkDefine r t f = .ok (k, w)) :
    k.val = f.slot ∧ w = f.window ∧ w ≠ .none ∧ w.legal ∧ (∀ i : Slot, i ≠ k → (t[i]).overlaps w = false) ∧
    (TableLaw t → TableLaw (replaceSlot t k w)) := by
  obtain ⟨-, hk, rfl, hf, he, hover, hroom⟩ := checkDefine_accepted h
  obtain ⟨hne, hlegal⟩ := DefineFields.window_legal hf he
  have hapart : ∀ i : Slot, i ≠ k → (t[i]).overlaps f.window = false := by
    intro i hi
    by_contra ho
    rw [overlapsOther_iff.2 ⟨i, hi, by simpa using ho⟩] at hover
    cases hover
  refine ⟨hk, rfl, hne, hlegal, hapart, fun ht => tableLaw_replaceSlot ht hlegal hapart ?_⟩
  have := (otherRecords_le t k).trans ht.records
  omega

/-- Operands outside the ranges of R6 are not those of a RECORD window. -/
theorem DefineFields.not_fieldsLegal_record (hk : f.kind = 1)
    (h : ¬ (f.size = 4 ∨ f.size = 8 ∨ f.size = 16) ∨ f.count = 0 ∨ 65536 < f.count ∨ f.base % f.size ≠ 0 ∨
      f.size ≤ f.stateWord ∨ f.volatileSet >>> f.size ≠ 0 ∨ f.volatileSet.getLsbD f.stateWord = true ∨
      3 < f.priority) : ¬ f.fieldsLegal := by
  rintro (⟨-, hl⟩ | ⟨h2, -⟩)
  · obtain ⟨hs, hc, hb, hw, hv, hg, hp⟩ := recordLegal_iff.1 hl
    rcases h with h | h | h | h | h | h | h | h
    · exact h hs
    · omega
    · omega
    · exact h hb
    · omega
    · exact h hv
    · rw [hg] at h; cases h
    · omega
  · omega

/-- Operands outside the ranges of R7 are not those of a JOURNAL window. -/
theorem DefineFields.not_fieldsLegal_journal (hk : f.kind = 2)
    (h : f.length % 4 ≠ 0 ∨ f.length < 4 ∨ 8192 < f.length ∨ f.base % 4 ≠ 0 ∨ 3 < f.priority) : ¬ f.fieldsLegal := by
  rintro (⟨h1, -⟩ | ⟨-, hl⟩)
  · omega
  · have := journalLegal_iff.1 hl
    omega

/-- The extent of the window that legal fields describe (R1). -/
theorem DefineFields.window_end (h : f.kind = 1 ∨ f.kind = 2) :
    f.window.base + f.window.words = f.base + if f.kind = 1 then f.size * f.count else f.length := by
  rcases h with h | h
  · rw [window_record h, if_pos h]; rfl
  · rw [window_journal h, if_neg (by omega)]; rfl

/-- Legal fields whose extent ends below the status page, kind by kind. -/
theorem DefineFields.fieldsLegal_of_ends
    (h : (f.kind = 1 ∧ f.recordLegal = true ∧ f.base + f.size * f.count ≤ Config.statusBase) ∨
      (f.kind = 2 ∧ f.journalLegal = true ∧ f.base + f.length ≤ Config.statusBase)) :
    f.fieldsLegal ∧ f.window.base + f.window.words ≤ Config.statusBase := by
  rcases h with ⟨hk, hl, he⟩ | ⟨hk, hl, he⟩
  · exact ⟨.inl ⟨hk, hl⟩, by rw [window_end (.inl hk), if_pos hk]; exact he⟩
  · exact ⟨.inr ⟨hk, hl⟩, by rw [window_end (.inr hk), if_neg (by omega)]; exact he⟩

end Sys2Proof.Machine

/-- Settles O17: the order of the checks by `checkDefine_role`, `checkDefine_fields` and `checkDefine_legal`, what they accept
by `checkDefine_ok`. -/
theorem defineCheckOrder : Obligations.DefineCheckOrder := by
  refine ⟨fun r t f h => checkDefine_role h, fun t f => ⟨?_, ?_, ?_, ?_, ?_, ?_⟩, fun t f k w h => checkDefine_ok h⟩
  · rintro (h | h)
    · exact checkDefine_fields (.inl h)
    · refine checkDefine_fields (.inr ?_)
      rintro (⟨h1, -⟩ | ⟨h2, -⟩)
      · exact h.1 h1
      · exact h.2 h2
  · exact fun _ hk h => checkDefine_fields (.inr (DefineFields.not_fieldsLegal_record hk h))
  · exact fun _ hk h => checkDefine_fields (.inr (DefineFields.not_fieldsLegal_journal hk h))
  · intro hs hk hl
    have hf : f.fieldsLegal := .inl ⟨hk, hl⟩
    have he := DefineFields.window_end (.inl hk)
    rw [if_pos hk] at he
    exact ⟨checkDefine_base (k := ⟨f.slot, by omega⟩) rfl hf,
      fun hb hrun => checkDefine_run (k := ⟨f.slot, by omega⟩) rfl hf hb (he ▸ hrun)⟩
  · intro hs hk hl
    have hf : f.fieldsLegal := .inr ⟨hk, hl⟩
    have he := DefineFields.window_end (.inr hk)
    rw [if_neg (by omega)] at he
    exact ⟨checkDefine_base (k := ⟨f.slot, by omega⟩) rfl hf,
      fun hb hrun => checkDefine_run (k := ⟨f.slot, by omega⟩) rfl hf hb (he ▸ hrun)⟩
  · intro k hs hb h
    obtain ⟨hf, he⟩ := DefineFields.fieldsLegal_of_ends h
    refine ⟨fun ho => checkDefine_overlap hs hf hb he (overlapsOther_iff.2 ho), fun ho => ?_⟩
    have ho' : overlapsOther t k f.window = false := by
      rw [← Bool.not_eq_true, overlapsOther_iff]
      rintro ⟨i, hi, hov⟩
      rw [ho i hi] at hov
      cases hov
    rw [checkDefine_capacity hs hf hb he ho']
    refine ⟨fun hk hover => if_pos ⟨hk, hover⟩, fun hroom => if_neg ?_⟩
    rintro ⟨hk, hover⟩
    rcases hroom with h2 | hroom
    · omega
    · exact absurd hroom (Nat.not_le_of_lt hover)
end

section
/-! What the events of the part leave of the Window Table and of the running DEFINE_WINDOW: all of it, but for the commands,
their completion and the power-on reset. -/

namespace Sys2Proof.Machine

/-- The slot and the window of the DEFINE_WINDOW that runs (R10, R160). -/
def Csu.defining (c : Csu) : Option (Slot × Window) :=
  match c.running with
  | some (.define k w _) => some (k, w)
  | _ => none

/-- What the law of the windows reads: the Window Table, and the window that will be installed. -/
def State.table (s : State) : Vector Window 8 × Option (Slot × Window) := (s.windows, s.csu.defining)

/-- The law of the windows by what it reads (R9, R10). -/
theorem windowLaw_iff {s : State} :
    WindowLaw s ↔ TableLaw s.table.1 ∧ ∀ k w, s.table.2 = some (k, w) → TableLaw (replaceSlot s.table.1 k w) := by
  unfold WindowLaw State.table Csu.defining
  rcases s.csu.running with _ | (⟨k, w, n⟩ | ⟨k, n⟩ | _) <;> simp

/-- A command that completes leaves no DEFINE_WINDOW running (R160). -/
theorem completeWith_table (code : Byte) (r : ResultCode) (n : Nat) (s : State) :
    (completeWith code r n s).table = (s.windows, none) := by
  obtain ⟨q, h, hc⟩ := completeWith_spec code r n s
  rw [hc]
  rfl

/-! ## What leaves the table and the running definition as they are -/

section
variable (s : State)

@[simp] theorem State.onBpt_table (f : Bpt → Bpt) : (s.onBpt f).table = s.table := rfl
@[simp] theorem State.onRts_table (f : Rts → Rts) : (s.onRts f).table = s.table := rfl
@[simp] theorem State.onJournals_table (f : Journals → Journals) : (s.onJournals f).table = s.table := rfl
@[simp] theorem State.onDisp_table (f : Dispatcher → Dispatcher) : (s.onDisp f).table = s.table := rfl
@[simp] theorem State.onLink_table (f : Link → Link) : (s.onLink f).table = s.table := rfl
@[simp] theorem State.onApply_table (f : ApplyEngine → ApplyEngine) : (s.onApply f).table = s.table := rfl
@[simp] theorem State.onPass_table (f : PassEngine → PassEngine) : (s.onPass f).table = s.table := rfl
@[simp] theorem State.onRc_table (f : RoleController → RoleController) : (s.onRc f).table = s.table := rfl
@[simp] theorem State.onMem_table (f : Memory → Memory) : (s.onMem f).table = s.table := rfl
@[simp] theorem State.draw_table : s.draw.table = s.table := rfl

/-- A branch reads the table of the state it takes. -/
@[simp] theorem State.ite_table (p : Prop) [Decidable p] (t : State) :
    (if p then s else t).table = if p then s.table else t.table :=
  apply_ite State.table p s t

/-! ### Reports -/

@[simp] theorem raise_table (n : Notice) : (raise n s).table = s.table := rfl
@[simp] theorem driveInt_table : (driveInt s).table = s.table := rfl
@[simp] theorem reportDiscard_table (m : DiscardMarker) (k : Slot) (p : Nat) :
    (reportDiscard m k p s).table = s.table := rfl
@[simp] theorem post_table (w : Nat) (v : DWord) : (post w v s).table = s.table := rfl
@[simp] theorem postChanged_table (b : State) (ws : List Nat) : (postChanged b ws s).table = s.table := by
  obtain ⟨q, h⟩ := postChanged_spec b ws s
  rw [h]
  rfl
@[simp] theorem formResult_table (r : ResultWord) : (formResult r s).table = s.table := by
  obtain ⟨q, h, hf⟩ := formResult_spec r s
  rw [hf]
  rfl
@[simp] theorem intakeResult_table (c : Byte) : (intakeResult c s).table = s.table := formResult_table _ _
/-- A SWITCHOVER that ends is no DEFINE_WINDOW (R160). -/
@[simp] theorem endSwitchover_table (r : ResultCode) : (endSwitchover r s).table = s.table := by
  unfold endSwitchover
  split
  · rename_i h
    rw [completeWith_table]
    simp [State.table, Csu.defining, h]
  · rfl
@[simp] theorem postCounts_table (ws : List Nat) : (postCounts ws s).table = s.table := by
  induction ws generalizing s with
  | nil => rfl
  | cons w ws ih =>
    simp only [postCounts]
    rw [ih]
    split <;> rfl

/-! ### Tags and journals -/

@[simp] theorem tagEvent_table (e : TagEvent) (i : Nat) : (tagEvent e i s).table = s.table := rfl
@[simp] theorem recordEvent_table (e : TagEvent) (k : Slot) (i : Nat) : (recordEvent e k i s).table = s.table := by
  unfold recordEvent
  split <;> simp
@[simp] theorem recordAcked_table (k : Slot) (i : Nat) : (recordAcked k i s).table = s.table := by
  unfold recordAcked
  split <;> simp
@[simp] theorem bulkClear_table : (bulkClear s).table = s.table := rfl
@[simp] theorem handoffSweep_table : (handoffSweep s).table = s.table := rfl
@[simp] theorem clearMarks_table : (clearMarks s).table = s.table := rfl
@[simp] theorem setJournalState_table (k : Slot) (x : Option JournalState) :
    (setJournalState k x s).table = s.table := rfl
@[simp] theorem emptyJournals_table : (emptyJournals s).table = s.table := by
  obtain ⟨v, p, h, -⟩ := emptyJournals_spec s
  rw [h]
  rfl
@[simp] theorem enterDesync_table (k : Slot) : (enterDesync k s).table = s.table := by
  unfold enterDesync
  split <;> simp
@[simp] theorem appendEntry_table (e : JournalEntry) : (appendEntry e s).table = s.table := rfl
@[simp] theorem dropFront_table : (dropFront s).table = s.table := rfl
@[simp] theorem insertBlock_table (k : Slot) (p n : Nat) : (insertBlock k p n s).table = s.table := rfl
@[simp] theorem copyInStep_table : (copyInStep s).table = s.table := rfl
@[simp] theorem copyAcked_table (k : Slot) : (copyAcked k s).table = s.table := by
  unfold copyAcked
  split <;> simp

/-! ### The Dispatcher -/

@[simp] theorem joinInFlight_table (i : Item) (r : Option (Fin 4)) : (joinInFlight i r s).table = s.table := rfl
@[simp] theorem occupy_table (r : Fin 4) (i : ReadItem) : (occupy r i s).table = s.table := rfl
@[simp] theorem remarkSent_table : (remarkSent s).table = s.table := rfl
@[simp] theorem startItem_table (c : Choice) : (startItem c s).table = s.table := by
  unfold startItem
  (repeat' split) <;> simp
@[simp] theorem countCorrected_table (c : ReadClass) : (countCorrected c s).table = s.table := by
  unfold countCorrected
  split <;> simp
@[simp] theorem takeWord_table (e : InFlight) (r : Fin 4) (ro : Readout) (c : ReadClass) (d : DWord) :
    (takeWord e r ro c d s).table = s.table := by
  unfold takeWord
  (repeat' split) <;> simp
@[simp] theorem readoutWord_table : (readoutWord s).table = s.table := by
  unfold readoutWord
  (repeat' split) <;> simp
@[simp] theorem restartReadout_table (k : Slot) (i : Nat) : (restartReadout k i s).table = s.table := by
  unfold restartReadout
  (repeat' split) <;> simp
@[simp] theorem capture_table (k : Slot) (w : RecordWindow) (i p : Nat) : (capture k w i p s).table = s.table := by
  unfold capture
  split <;> simp
@[simp] theorem restartAckTimer_table : (restartAckTimer s).table = s.table := rfl
@[simp] theorem entryGoneBack_table (e : InFlight) : (entryGoneBack e s).table = s.table := by
  unfold entryGoneBack
  split <;> simp
@[simp] theorem entriesGoneBack_table (l : List InFlight) : (entriesGoneBack l s).table = s.table := by
  induction l generalizing s with
  | nil => rfl
  | cons x l ih => simp [entriesGoneBack, ih]
@[simp] theorem cutSending_table (l : List InFlight) : (cutSending l s).table = s.table := by
  obtain ⟨x, n, h, -⟩ := cutSending_spec l s
  rw [h]
  rfl
@[simp] theorem goBackFrom_table (e : SeqNo) : (goBackFrom e s).table = s.table := by simp [goBackFrom]
@[simp] theorem clearDispatcher_table : (clearDispatcher s).table = s.table := rfl
@[simp] theorem recordsGoneBack_table (l : List InFlight) : (recordsGoneBack l s).table = s.table := by
  induction l generalizing s with
  | nil => rfl
  | cons x l ih =>
    simp only [recordsGoneBack]
    rw [ih]
    split <;> simp
@[simp] theorem emptyGoingBack_table : (emptyGoingBack s).table = s.table := by simp [emptyGoingBack]

/-! ### The passes -/

@[simp] theorem abortSync_table : (abortSync s).table = s.table := rfl
@[simp] theorem stopRefresh_table : (stopRefresh s).table = s.table := rfl
@[simp] theorem beginRefresh_table : (beginRefresh s).table = s.table := rfl
@[simp] theorem restartSync_table : (restartSync s).table = s.table := rfl
@[simp] theorem armSyncBegin_table : (armSyncBegin s).table = s.table := rfl
@[simp] theorem completeSync_table : (completeSync s).table = s.table := rfl
@[simp] theorem nextRefresh_table : (nextRefresh s).table = s.table := rfl
@[simp] theorem startSync_table : (startSync s).table = s.table := by simp [startSync]
@[simp] theorem resyncNow_table : (resyncNow s).table = s.table := by
  unfold resyncNow
  split <;> simp
@[simp] theorem syncDoneAcked_table (q : SeqNo) : (syncDoneAcked q s).table = s.table := by
  unfold syncDoneAcked
  split <;> simp
@[simp] theorem syncStep_table : (syncStep s).table = s.table := rfl
@[simp] theorem refreshStep_table : (refreshStep s).table = s.table := by
  simp only [refreshStep, State.onPass_table]
  split <;> simp
@[simp] theorem pairingDecision_table : (pairingDecision s).table = s.table := by simp [pairingDecision]
@[simp] theorem decideIfPaired_table : (decideIfPaired s).table = s.table := by simp [decideIfPaired]

/-! ### The Role Controller -/

@[simp] theorem setRole_table (r : Role) : (setRole r s).table = s.table := rfl
@[simp] theorem settleSeen_table : (settleSeen s).table = s.table := by simp [settleSeen]
@[simp] theorem freeRead_table (b : State) : (freeRead b s).table = s.table := by
  obtain ⟨x, h, -⟩ := freeRead_spec b s
  rw [h]
  rfl
@[simp] theorem emptyApply_table : (emptyApply s).table = s.table := by simp [emptyApply]
@[simp] theorem adoptEpoch_table : (adoptEpoch s).table = s.table := rfl
@[simp] theorem leaveHandoff_table : (leaveHandoff s).table = s.table := rfl
@[simp] theorem clearReplication_table : (clearReplication s).table = s.table := by
  obtain ⟨v, p, h, -⟩ := clearReplication_spec s
  rw [h]
  rfl
@[simp] theorem promote_table : (promote s).table = s.table := by simp [promote]
@[simp] theorem promoteIfDrained_table : (promoteIfDrained s).table = s.table := by simp [promoteIfDrained]
@[simp] theorem takeOverNow_table : (takeOverNow s).table = s.table := by simp [takeOverNow]
@[simp] theorem judgeLost_table : (judgeLost s).table = s.table := by simp [judgeLost]
@[simp] theorem judgeNoActive_table (b : State) : (judgeNoActive b s).table = s.table := by simp [judgeNoActive]
@[simp] theorem judgeTakeover_table (b : State) : (judgeTakeover b s).table = s.table := by simp [judgeTakeover]
@[simp] theorem demote_table (x : SyncState) : (demote x s).table = s.table := by simp [demote]
@[simp] theorem handoffSucceeds_table : (handoffSucceeds s).table = s.table := by simp [handoffSucceeds]
@[simp] theorem handoffReturns_table (r : ResultCode) : (handoffReturns r s).table = s.table := by simp [handoffReturns]
@[simp] theorem judgeConverged_table : (judgeConverged s).table = s.table := by simp [judgeConverged]
@[simp] theorem demoteDual_table : (demoteDual s).table = s.table := by simp [demoteDual]
@[simp] theorem dualClaimDetected_table : (dualClaimDetected s).table = s.table := by simp [dualClaimDetected]
@[simp] theorem enterReleased_table : (enterReleased s).table = s.table := by simp [enterReleased]
@[simp] theorem releaseIfHeld_table : (releaseIfHeld s).table = s.table := by simp [releaseIfHeld]
@[simp] theorem startLiveness_table : (startLiveness s).table = s.table := rfl
@[simp] theorem peerRoleChanged_table (old : Role) : (peerRoleChanged old s).table = s.table := by
  simp [peerRoleChanged]
@[simp] theorem updatePeer_table (p : PeerRecord) : (updatePeer p s).table = s.table := by simp [updatePeer]

/-! ### The Pairing Link -/

@[simp] theorem dropLink_table (v : PeerView) : (dropLink v s).table = s.table := rfl
@[simp] theorem leaveUp_table (v : PeerView) : (leaveUp v s).table = s.table := by simp [leaveUp]
@[simp] theorem enterTrain_table : (enterTrain s).table = s.table := rfl
@[simp] theorem toTrain_table (v : PeerView) : (toTrain v s).table = s.table := by simp [toTrain]
@[simp] theorem loseAlignment_table : (loseAlignment s).table = s.table := by
  unfold loseAlignment
  split <;> simp
@[simp] theorem retrain_table : (retrain s).table = s.table := by simp [retrain]
@[simp] theorem enterHello_table : (enterHello s).table = s.table := rfl
@[simp] theorem goUp_table : (goUp s).table = s.table := by simp [goUp]
@[simp] theorem tryUp_table : (tryUp s).table = s.table := by simp [tryUp]
@[simp] theorem goIncompatible_table : (goIncompatible s).table = s.table := rfl
@[simp] theorem judgeHelloClaim_table (h : HelloFrame) : (judgeHelloClaim h s).table = s.table := by
  simp [judgeHelloClaim]
@[simp] theorem helloInHello_table (h : HelloFrame) : (helloInHello h s).table = s.table := by simp [helloInHello]
@[simp] theorem helloInUp_table (h : HelloFrame) : (helloInUp h s).table = s.table := by simp [helloInUp]
@[simp] theorem countFrame_table : (countFrame s).table = s.table := rfl
@[simp] theorem dropInvalid_table : (dropInvalid s).table = s.table := rfl
@[simp] theorem passFrame_table : (passFrame s).table = s.table := by simp [passFrame]
@[simp] theorem takeHello_table (h : HelloFrame) : (takeHello h s).table = s.table := by
  unfold takeHello
  split <;> simp
@[simp] theorem meetGap_table : (meetGap s).table = s.table := by simp [meetGap]
@[simp] theorem acceptFrame_table (f : SeqFrame) : (acceptFrame f s).table = s.table := rfl
@[simp] theorem judgeSequenced_table (f : SeqFrame) : (judgeSequenced f s).table = s.table := by simp [judgeSequenced]
@[simp] theorem receiveByte_table (k : ByteKind) : (receiveByte k s).table = s.table := by
  unfold receiveByte
  (repeat' split) <;> simp
@[simp] theorem entryAcked_table (e : InFlight) : (entryAcked e s).table = s.table := by
  unfold entryAcked
  split <;> simp
@[simp] theorem acknowledge_table (n : Nat) : (acknowledge n s).table = s.table := by
  induction n generalizing s with
  | zero => rfl
  | succ n ih =>
    simp only [acknowledge]
    split
    · rfl
    · simp [ih]
@[simp] theorem resolveApplied_table (a : SeqNo) : (resolveApplied a s).table = s.table := by simp [resolveApplied]
@[simp] theorem enterHeartbeat_table (h : HeartbeatFrame) : (enterHeartbeat h s).table = s.table := by
  simp [enterHeartbeat]
@[simp] theorem takeHeartbeat_table (h : HeartbeatFrame) (x : Bool) : (takeHeartbeat h x s).table = s.table := by
  simp [takeHeartbeat]
@[simp] theorem losePeer_table : (losePeer s).table = s.table := by simp [losePeer]
@[simp] theorem periodBoundary_table : (periodBoundary s).table = s.table := by simp [periodBoundary]
@[simp] theorem startFrame_table (f : Frame) : (startFrame f s).table = s.table := rfl
@[simp] theorem transmitNext_table : (transmitNext s).table = s.table := by
  unfold transmitNext
  (repeat' split) <;> simp

/-! ### The Apply Engine -/

@[simp] theorem completeWord_table (k : Slot) (o : Nat) (m : Option (DWord × ReadClass)) :
    (completeWord k o m s).table = s.table := by
  unfold completeWord
  split <;> simp
@[simp] theorem handoverApplied_table (e : Epoch) : (handoverApplied e s).table = s.table := by simp [handoverApplied]
@[simp] theorem completionEffects_table (b : SeqBody) (m : Option (DWord × ReadClass)) :
    (completionEffects b m s).table = s.table := by
  unfold completionEffects
  split <;> simp
@[simp] theorem queueAck_table : (queueAck s).table = s.table := by simp [queueAck]
@[simp] theorem completeHead_table (f : SeqFrame) (l : List SeqFrame) : (completeHead f l s).table = s.table := by
  simp [completeHead]
@[simp] theorem completeImmediate_table (l : List SeqFrame) : (completeImmediate l s).table = s.table := by
  induction l generalizing s with
  | nil => rfl
  | cons x l ih => simp [completeImmediate, ih]
@[simp] theorem settleQueue_table : (settleQueue s).table = s.table := by simp [settleQueue]
@[simp] theorem applyWrite_table : (applyWrite s).table = s.table := by
  unfold applyWrite
  split <;> simp
@[simp] theorem applyRead_table : (applyRead s).table = s.table := by
  unfold applyRead
  (repeat' split) <;> simp
@[simp] theorem applyGrant_table : (applyGrant s).table = s.table := by simp [applyGrant]

/-! ### The memory port -/

@[simp] theorem settleOffers_table : (settleOffers s).table = s.table := rfl
@[simp] theorem close_table (b : State) : (close b s).table = s.table := by simp [close]
@[simp] theorem postingWrite_table : (postingWrite s).table = s.table := by
  unfold postingWrite
  (repeat' split) <;> rfl
@[simp] theorem serve_table (c : PortClass) : (serve c s).table = s.table := by cases c <;> simp [serve]
@[simp] theorem grantPart_table (c : PortClass) : (grantPart c s).table = s.table := by simp [grantPart]
@[simp] theorem driveAccess_table (a : Access) : (driveAccess a s).table = s.table := by simp [driveAccess]
@[simp] theorem countUpstream_table : (countUpstream s).table = s.table := rfl
@[simp] theorem grantUpstream_table (a : Access) : (grantUpstream a s).table = s.table := by
  unfold grantUpstream
  split <;> simp
@[simp] theorem forward_table (a : Access) : (forward a s).table = s.table := by simp [forward]
@[simp] theorem endHold_table : (endHold s).table = s.table := rfl

/-! ### The session bus -/

@[simp] theorem countSuppressed_table : (countSuppressed s).table = s.table := rfl
@[simp] theorem pageViolation_table (a : Addr) : (pageViolation a s).table = s.table := rfl
@[simp] theorem mergeShadow_table (i : Nat) (d : DWord) (e : Byte) : (mergeShadow i d e s).table = s.table := by
  unfold mergeShadow
  split <;> simp
@[simp] theorem recordWrite_table (k : Slot) (w : RecordWindow) (i p : Nat) (e : Byte) :
    ((recordWrite k w i p e s).2).table = s.table := by
  unfold recordWrite
  (repeat' split) <;> simp
@[simp] theorem journalWrite_table (k : Slot) (f : Nat) (a : Access) :
    ((journalWrite k f a s).2).table = s.table := by
  unfold journalWrite
  (repeat' split) <;> simp
@[simp] theorem stallRoom_table : (stallRoom s).table = s.table := by
  unfold stallRoom
  (repeat' split) <;> simp
@[simp] theorem stallExpiry_table : (stallExpiry s).table = s.table := by
  unfold stallExpiry
  (repeat' split) <;> simp
@[simp] theorem resolveStall_table : (resolveStall s).table = s.table := by
  unfold resolveStall
  split <;> simp
@[simp] theorem finish_table (b : State) : (finish b s).table = s.table := by simp [finish]
@[simp] theorem releaseRead_table : (releaseRead s).table = s.table := by
  unfold releaseRead
  (repeat' split) <;> simp

/-! ### The receiver -/

@[simp] theorem receiveHello_table (h : HelloFrame) : (receiveHello h s).table = s.table := by simp [receiveHello]
@[simp] theorem receiveHeartbeat_table (h : HeartbeatFrame) (x : Bool) :
    (receiveHeartbeat h x s).table = s.table := by simp [receiveHeartbeat]
@[simp] theorem receiveAck_table (a : SeqNo) : (receiveAck a s).table = s.table := by simp [receiveAck]
@[simp] theorem receiveNak_table (e : SeqNo) : (receiveNak e s).table = s.table := by simp [receiveNak]
@[simp] theorem takeSequenced_table (f : SeqFrame) : (takeSequenced f s).table = s.table := by simp [takeSequenced]
@[simp] theorem receiveSequenced_table (f : SeqFrame) : (receiveSequenced f s).table = s.table := by
  simp [receiveSequenced]
@[simp] theorem judgeFrame_table (l : List Byte) : (judgeFrame l s).table = s.table := by
  unfold judgeFrame
  split <;> simp
@[simp] theorem readOn_table (l : List Byte) : (readOn l s).table = s.table := by simp [readOn]
@[simp] theorem takeByte_table (b : CableByte) : (takeByte b s).table = s.table := by
  unfold takeByte
  (repeat' split) <;> simp
@[simp] theorem takeAll_table (l : List CableByte) : (takeAll l s).table = s.table := by
  induction l generalizing s with
  | nil => rfl
  | cons x l ih => simp [takeAll, ih]
@[simp] theorem takeBytes_table (l : List Byte) (x : Bool) : (takeBytes l x s).table = s.table := by simp [takeBytes]

/-! ### The events of the rows -/

@[simp] theorem endInterfaceReset_table : (endInterfaceReset s).table = s.table := rfl
@[simp] theorem helloTimeout_table : (helloTimeout s).table = s.table := by simp [helloTimeout]
@[simp] theorem helloDue_table : (helloDue s).table = s.table := by simp [helloDue]
@[simp] theorem frameBoundary_table : (frameBoundary s).table = s.table := by simp [frameBoundary]
@[simp] theorem helloSent_table : (helloSent s).table = s.table := by simp [helloSent]
@[simp] theorem boundaryPassed_table : (boundaryPassed s).table = s.table := by simp [boundaryPassed]
@[simp] theorem ackExpired_table : (ackExpired s).table = s.table := by simp [ackExpired]
@[simp] theorem closedRetrain_table : (closedRetrain s).table = s.table := by simp [closedRetrain]
@[simp] theorem startNext_table : (startNext s).table = s.table := by
  unfold startNext
  split <;> simp
@[simp] theorem portSlot_table (c : PortClass) : (portSlot c s).table = s.table := by simp [portSlot]
@[simp] theorem beginCopy_table (k : Slot) : (beginCopy k s).table = s.table := by simp [beginCopy]
@[simp] theorem insertNext_table : (insertNext s).table = s.table := by
  unfold insertNext
  (repeat' split) <;> simp
@[simp] theorem mergeSlot_table : (mergeSlot s).table = s.table := by simp [mergeSlot]
@[simp] theorem writeSlot_table : (writeSlot s).table = s.table := by simp [writeSlot]
@[simp] theorem visitSync_table : (visitSync s).table = s.table := by simp [visitSync]
@[simp] theorem finishSync_table : (finishSync s).table = s.table := by simp [finishSync]
@[simp] theorem visitRefresh_table : (visitRefresh s).table = s.table := by simp [visitRefresh]
@[simp] theorem passEnd_table : (passEnd s).table = s.table := by simp [passEnd]
@[simp] theorem claimChanged_table (x : Bool) : (claimChanged x s).table = s.table := by simp [claimChanged]
@[simp] theorem levelSampled_table (x : Bool) : (levelSampled x s).table = s.table := by simp [levelSampled]
@[simp] theorem dualExpired_table : (dualExpired s).table = s.table := by
  unfold dualExpired
  split <;> simp
@[simp] theorem handoffExpired_table : (handoffExpired s).table = s.table := by simp [handoffExpired]
@[simp] theorem livenessExpired_table : (livenessExpired s).table = s.table := by simp [livenessExpired]
@[simp] theorem clockLost_table : (clockLost s).table = s.table := by simp [clockLost]
@[simp] theorem clockReturned_table : (clockReturned s).table = s.table := by
  unfold clockReturned
  split <;> simp

end

end Sys2Proof.Machine
end

section
open Sys2Proof Sys2Proof.Machine
/-! The Window Table over one step: every way it and the running DEFINE_WINDOW can change. -/

namespace Sys2Proof.Machine

variable {s : State}

/-- What a step can make of the Window Table and of the window that will be installed: nothing, the end of the running
command, the intake of a definition that passes the checks, its installation, a slot cleared, and the table of a part after
power-on (R4, R5, R10, R11, R160). -/
inductive TableAfter (s : State) : Vector Window 8 × Option (Slot × Window) → Prop
  | stands : TableAfter s s.table
  | ended : TableAfter s (s.windows, none)
  | begun {r : Role} {f : DefineFields} {k : Slot} {w : Window} (h : checkDefine r s.windows f = .ok (k, w)) :
      TableAfter s (s.windows, some (k, w))
  | installed {k : Slot} {w : Window} (h : s.csu.defining = some (k, w)) : TableAfter s (replaceSlot s.windows k w, none)
  | cleared (k : Slot) : TableAfter s (replaceSlot s.windows k .none, none)
  | powered : TableAfter s (Vector.replicate 8 .none, none)

namespace TableAfter

theorem of_eq {t : State} (h : t.table = s.table) : TableAfter s t.table := h ▸ stands

/-- What follows a state with the same table follows the state itself. -/
theorem of_table {u : State} {x : Vector Window 8 × Option (Slot × Window)} (h : TableAfter u x)
    (hu : u.table = s.table) : TableAfter s x := by
  obtain ⟨hw, hd⟩ := Prod.mk.injEq .. ▸ hu
  cases h with
  | stands => exact hu ▸ stands
  | ended => exact hw ▸ ended
  | begun hc => exact hw ▸ begun (hw ▸ hc)
  | installed hi => exact hw ▸ installed (hd ▸ hi)
  | cleared k => exact hw ▸ cleared k
  | powered => exact powered

/-- A command that completes on a state with the same windows. -/
theorem completed_of_windows {u : State} (h : u.table.1 = s.table.1) (code : Byte) (r : ResultCode) (n : Nat) :
    TableAfter s (completeWith code r n u).table := by
  rw [completeWith_table, show u.windows = s.windows from h]
  exact ended

/-- A command that completes behind effects that leave the table alone. -/
theorem completed {u : State} (h : u.table = s.table) (code : Byte) (r : ResultCode) (n : Nat) :
    TableAfter s (completeWith code r n u).table :=
  completed_of_windows (congrArg Prod.fst h) code r n

end TableAfter

/-- The table of a part after power-on is legal (R4). -/
theorem tableLaw_empty : TableLaw (Vector.replicate 8 .none) where
  legal k := by rw [show (Vector.replicate 8 Window.none)[k] = .none by simp]; trivial
  apart i j _ := by rw [show (Vector.replicate 8 Window.none)[j] = .none by simp, Window.overlaps_none]
  records := by decide
  bases k w h := by simp [recordAt] at h

/-- Every such change keeps the law of the windows (R3, R5 to R11). -/
theorem WindowLaw.after {t : State} (h : WindowLaw s) (ht : TableAfter s t.table) : WindowLaw t := by
  rw [windowLaw_iff] at h ⊢
  obtain ⟨hs, hd⟩ := h
  generalize t.table = x at ht
  cases ht with
  | stands => exact ⟨hs, hd⟩
  | ended => exact ⟨hs, by simp⟩
  | begun hc =>
    obtain ⟨-, -, -, -, -, hlaw⟩ := checkDefine_ok hc
    refine ⟨hs, fun k w hkw => ?_⟩
    cases hkw
    exact hlaw hs
  | installed hi => exact ⟨hd _ _ hi, by simp⟩
  | cleared k => exact ⟨tableLaw_clearSlot k hs, by simp⟩
  | powered => exact ⟨tableLaw_empty, by simp⟩

/-! ## The commands of the control page -/

section
variable (s)

@[simp] theorem startAs_table (r : Role) : (startAs r s).table = s.table := by
  unfold startAs startSupervision
  simp only [State.onRc_table, startLiveness_table, State.onLink_table, enterTrain_table]
  split <;> simp

@[simp] theorem stopEffects_table : (stopEffects s).table = s.table := by
  simp [stopEffects, stopLink]

end

/-- What each command can make of the table (R5, R11, R160). -/
theorem runCommand_tableAfter (c : Command) (w1 w2 w3 : DWord) (s : State) :
    TableAfter s (runCommand c w1 w2 w3 s).table := by
  cases c with
  | defineWindow =>
    simp only [runCommand, commandDefine]
    split
    · exact .completed rfl ..
    · rename_i h
      exact .begun h
  | clearWindow =>
    simp only [runCommand, commandClear]
    split
    · exact .completed rfl ..
    · split
      · exact .completed rfl ..
      · exact .ended
  | setTiming =>
    simp only [runCommand, commandTiming]
    split
    · exact .completed rfl ..
    · split
      · exact .completed rfl ..
      · exact .completed (s := s) (u := s.onCsu _) rfl ..
  | start =>
    simp only [runCommand, commandStart]
    split
    · exact .completed rfl ..
    · split
      · exact .completed rfl ..
      · exact .completed (startAs_table ..) ..
  | stop => exact .completed (by simp) ..
  | switchover =>
    simp only [runCommand, commandSwitchover]
    split
    · exact .completed rfl ..
    split
    · exact .completed rfl ..
    split
    · exact .completed rfl ..
    rw [judgeConverged_table, handoffSweep_table]
    exact .ended
  | takeOver =>
    simp only [runCommand, commandTakeOver]
    (repeat' split) <;> exact .completed (by simp) ..
  | release =>
    simp only [runCommand, commandRelease]
    split <;> exact .completed (by simp) ..
  | resume =>
    simp only [runCommand, commandResume]
    split <;> exact .completed (by simp) ..
  | resync =>
    simp only [runCommand, commandResync]
    (repeat' split) <;> exact .completed (by simp) ..
  | queryRecord =>
    simp only [runCommand, commandQuery]
    (repeat' split) <;> exact .completed rfl ..

/-- A command trigger: the intake and the command, an overrun, or a STOP that ends what runs (R159 to R162). -/
theorem commandTrigger_tableAfter (w0 w1 w2 w3 : DWord) (s : State) :
    TableAfter s (commandTrigger w0 w1 w2 w3 s).table := by
  unfold commandTrigger
  split
  · unfold takeTrigger
    split
    · exact (runCommand_tableAfter ..).of_table (intakeResult_table ..)
    · exact .completed (intakeResult_table ..) ..
  · rename_i r _
    split
    · have h : (completeWith r.code .aborted 0 s).table.1 = s.table.1 := by rw [completeWith_table]; rfl
      exact .completed_of_windows (by simpa using h) ..
    · exact .of_eq (raise_table ..)

/-! ## The accesses -/

section
variable (s)

@[simp] theorem livenessEvent_table : (livenessEvent s).table = s.table := by simp [livenessEvent]
@[simp] theorem enableEvent_table (w : DWord) : (enableEvent w s).table = s.table := rfl
@[simp] theorem clearEvent_table (w : DWord) : (clearEvent w s).table = s.table := rfl

end

/-- The event of a control page write (R19). -/
theorem controlEvent_tableAfter (i : Nat) (s : State) : TableAfter s (controlEvent i s).table := by
  unfold controlEvent
  split
  · exact commandTrigger_tableAfter ..
  · exact .of_eq (livenessEvent_table s)
  · exact .of_eq (enableEvent_table s _)
  · exact .of_eq (clearEvent_table s _)
  · exact .stands

/-- The decode of an access: only a control page write delivers a command (R17 to R19). -/
theorem decodeAccess_tableAfter (a : Access) (s : State) : TableAfter s (decodeAccess a s).2.table := by
  unfold decodeAccess
  split
  · split
    · simp only [controlDecode]
      split
      · exact .of_eq (mergeShadow_table ..)
      · exact (controlEvent_tableAfter ..).of_table (mergeShadow_table ..)
    · exact .stands
  · split <;> exact .of_eq (by simp)
  · (repeat' split) <;> exact .of_eq (by simp)
  · (repeat' split) <;> exact .of_eq (by simp)
  · exact .stands

/-- Taking an access makes of the table what its decode makes of it. -/
theorem takeAccess_table (a : Access) (s : State) : (takeAccess a s).table = (decodeAccess a s).2.table := by
  simp only [takeAccess]
  split <;> simp

theorem present_tableAfter (a : Access) (s : State) : TableAfter s (present a s).table := by
  unfold present
  split
  · exact .of_eq (by simp)
  · exact takeAccess_table a s ▸ decodeAccess_tableAfter a s

/-! ## The installation -/

/-- The completion of a window command: its window is installed or its slot cleared, and the CSU is idle (R10, R11, R160). -/
theorem completeProlonged_tableAfter (s : State) : TableAfter s (completeProlonged s).table := by
  unfold completeProlonged
  split
  · rename_i k w n h
    rw [completeWith_table]
    exact .installed (by simp [Csu.defining, h])
  · rw [completeWith_table]
    exact .cleared _
  · exact .stands

/-! ## The step -/

@[simp] theorem setPostClock_table (n : Nat) (s : State) : (s.onCsu fun c => { c with postClock := n }).table = s.table :=
  rfl

/-- Every command has a next state, and makes of the table one of the changes named. -/
theorem exec_tableAfter (c : Instr) (s : State) : ∃ t, exec c s = .next t ∧ TableAfter s t.table := by
  cases c
  case powerOnReset b => exact ⟨_, rfl, .powered⟩
  case prolongedCommandCompletion =>
    exact ⟨_, rfl, (close_table ..).symm ▸ completeProlonged_tableAfter s⟩
  case ordinaryAccess | controlPageWrite | statusPageWrite | recordWindowWrite | journalWindowWrite | windowRead |
      livenessWrite | noticeEnable | noticeClear | defineWindow | clearWindow | setTiming | start | stop | switchover |
      takeOver | release | resume | resync | queryRecord | unknownCommand =>
    exact ⟨_, rfl, present_tableAfter ..⟩
  all_goals exact ⟨_, rfl, .of_eq (by simp [takeEvent])⟩

/-- A tick advances the count of the running command and leaves the window it will install. -/
theorem tick_table (s : State) : (tick s).table = s.table := by
  unfold State.table Csu.defining tick
  rcases s.csu.running with _ | (_ | _ | _) <;> rfl

theorem takeWaiting_tableAfter {s t : State} (h : takeWaiting s = some t) : TableAfter s t.table := by
  unfold takeWaiting at h
  split at h
  · split at h
    · cases h
    · cases h
      exact takeAccess_table .. ▸ (decodeAccess_tableAfter ..).of_table rfl
  · cases h

/-- Every step makes of the table one of the changes named. -/
theorem step_tableAfter {s t : State} (h : step s = .next t) : TableAfter s t.table := by
  unfold step at h
  split at h
  · unfold idle at h
    split at h
    · rename_i hw
      cases h
      exact takeWaiting_tableAfter hw
    · split at h
      · rename_i c _
        obtain ⟨u, hu, ha⟩ := exec_tableAfter c s
        rw [hu] at h
        cases h
        exact ha
      · cases h
        exact .of_eq (tick_table s)
  · rename_i c rest _
    obtain ⟨u, hu, ha⟩ := exec_tableAfter c { s with pending := rest }
    rw [hu] at h
    cases h
    exact ha.of_table rfl

end Sys2Proof.Machine

/-- Settles O58: a step makes of the table one of the changes of `TableAfter`, and each of them keeps the law. -/
theorem windowKept : Obligations.WindowKept :=
  fun _ _ _ hw h => hw.after (step_tableAfter h)
end

section
open Sys2Proof Sys2Proof.Machine
/-! The completion of a window command, and the part after power-on. -/

namespace Sys2Proof.Machine

/-! ## The installation of a window -/

/-- Keys left out of a canonical table hold the default; the others hold what they held. -/
theorem sparseGet_filter {α : Type} [DecidableEq α] (d : α) (q : Nat → Bool) (n : Nat) {l : List (Nat × α)}
    (h : sparseWf d l = true) :
    sparseGet d n (l.filter fun e => q e.1) = if q n = true then sparseGet d n l else d := by
  induction l with
  | nil => simp [sparseGet]
  | cons e l ih =>
    obtain ⟨k, v⟩ := e
    obtain ⟨-, hk, hl⟩ := (sparseWf_cons d k v l).1 h
    rcases Nat.lt_trichotomy n k with hn | rfl | hn
    · have hrest : ∀ e ∈ l, n < e.1 := fun e he => hn.trans (hk e he)
      have hleft : ∀ e ∈ ((k, v) :: l).filter fun e => q e.1, n < e.1 := fun e he =>
        (List.mem_cons.1 (List.mem_of_mem_filter he)).elim (fun h => h ▸ hn) (hrest e)
      rw [sparseGet_of_below d n _ hleft,
        sparseGet_of_below d n _ (List.forall_mem_cons.2 ⟨hn, hrest⟩), ite_self]
    · rw [List.filter_cons]
      by_cases hq : q n = true
      · simp [hq, sparseGet]
      · have hleft : ∀ e ∈ l.filter fun e => q e.1, n < e.1 := fun e he => hk e (List.mem_of_mem_filter he)
        simp [hq, sparseGet_of_below d n _ hleft]
    · have hcons : ∀ m : List (Nat × α), sparseGet d n ((k, v) :: m) = sparseGet d n m := fun m => by
        simp [sparseGet, Nat.ne_of_lt hn, Nat.not_lt_of_lt hn]
      rw [List.filter_cons]
      split <;> simp only [hcons, ih hl]

/-- The tags of a range made CLEAN with their marks set, and every other tag as it was (R10). -/
theorem tagAt_freshTags (lo c n : Nat) {r : Rts} (h : sparseWf (⟨.clean, true⟩ : Tag) r.tags = true) :
    tagAt (freshTags lo c r) n = if lo ≤ n ∧ n < lo + c then ⟨.clean, true⟩ else tagAt r n := by
  have hf := sparseGet_filter (⟨.clean, true⟩ : Tag) (fun m => decide (m < lo ∨ lo + c ≤ m)) n h
  refine hf.trans ?_
  by_cases hn : lo ≤ n ∧ n < lo + c
  · rw [if_pos hn, if_neg]
    simp only [decide_eq_true_eq]
    omega
  · rw [if_neg hn, if_pos]
    · rfl
    · simp only [decide_eq_true_eq]
      omega

/-- A window command that completes installs its window, or an empty slot, and completes with OK and the total record
count (R10, R11, R160). -/
theorem completeProlonged_running {s : State} {k : Slot} {w : Window} {r : Running} (hr : s.csu.running = some r)
    (h : (∃ n, r = .define k w n) ∨ (w = .none ∧ ∃ n, r = .clear k n)) :
    completeProlonged s =
      completeWith r.code .ok (totalRecords (replaceSlot s.windows k w)) (installWindow k w s) := by
  rcases h with ⟨n, rfl⟩ | ⟨rfl, n, rfl⟩
  · simp only [completeProlonged, hr]; rfl
  · simp only [completeProlonged, hr]; rfl

end Sys2Proof.Machine

/-- Settles O19: what is installed by `getElem_replaceSlot` and `tagAt_freshTags`, the result by `completeWith_spec`. -/
theorem windowCommandCompletes : Obligations.WindowCommandCompletes := by
  intro s k w h
  obtain ⟨r, hr, hkind⟩ : ∃ r, s.csu.running = some r ∧
      ((∃ n, r = .define k w n) ∨ (w = .none ∧ ∃ n, r = .clear k n)) := by
    rcases h with ⟨n, h⟩ | ⟨hw, n, h⟩
    · exact ⟨_, h, .inl ⟨n, rfl⟩⟩
    · exact ⟨_, h, .inr ⟨hw, n, rfl⟩⟩
  obtain ⟨q, x, hres⟩ :=
    completeWith_spec r.code .ok (totalRecords (replaceSlot s.windows k w)) (installWindow k w s)
  have hc := (completeProlonged_running hr hkind).trans hres
  have hwin : (completeProlonged s).windows = replaceSlot s.windows k w := by rw [hc]; rfl
  have hrts : (completeProlonged s).rts =
      { freshTags (tagBaseOf (replaceSlot s.windows k w) k) w.records s.rts with
        pointers := s.rts.pointers.set k 0 } := by rw [hc]; rfl
  refine ⟨close s (completeProlonged s), rfl, ?_, ?_, ?_, ?_, ?_⟩
  · intro i
    rw [close_windows, hwin]
    exact getElem_replaceSlot ..
  · rw [close_rts, hrts]
  · rw [close_rts, hrts]; rfl
  · intro hf n
    rw [close_rts, close_windows, hrts, hwin]
    exact tagAt_freshTags _ _ n hf
  · rw [close_windows, close_rts, close_unreported, hc, hr]
    rcases hkind with ⟨n, rfl⟩ | ⟨rfl, n, rfl⟩
    · cases w <;> rfl
    · rfl

/-- Settles O3: each field of the state after power-on. -/
theorem powerOnResetState : Obligations.PowerOnResetState := by
  intro b s
  refine ⟨powerOn (if b then .b else .a) s.rc.claimIn s.rc.bclkQuiet s.mem s.draws s.pending, rfl, ?_⟩
  cases b <;> and_intros <;> rfl

namespace Sys2Proof.Machine

theorem roleLaw_reset : RoleLaw State.reset where
  claim := ⟨rfl, by decide⟩
  closing := by decide
  handoff := by decide
  table := by decide
  off := by decide
  sync := by decide
  refresh := by decide
  tags _ := rfl
  inFlight := by decide
  apply := by decide
  clock := by decide

theorem offersLaw_reset : OffersLaw State.reset := by
  have h : currentOffers State.reset = [.status 0] := by decide
  rw [OffersLaw, h]
  exact ⟨by decide, fun _ => .rfl, fun hn => by cases hn⟩

/-- The words pending after power-on are the words of the state then (R166, R168). -/
theorem postedLaw_reset : PostedLaw State.reset := by
  have h : ∀ w ∈ stateWords, pendingValue w State.reset.csu.postQueue = some (statusWord State.reset w) := by decide
  intro w hw v hv
  rw [h w hw] at hv
  exact (Option.some.inj hv).symm

theorem windowLaw_reset : WindowLaw State.reset := ⟨tableLaw_empty, trivial⟩

end Sys2Proof.Machine

/-- Settles O4: law by law on the one state; its lists are empty but for the words that power-on makes pending. -/
theorem lawsAtReset : Obligations.LawsAtReset := by
  refine ⟨rfl, ?interrupt, ?room, roleLaw_reset, windowLaw_reset, ⟨rfl, rfl⟩, ?flight, ?sequence, ?journal, ?link, nofun,
    nofun, postedLaw_reset, fun h => absurd rfl h, offersLaw_reset, ?readout⟩
  case interrupt => unfold InterruptLaw; decide
  case room => unfold RoomLaw; decide
  case flight => exact ⟨rfl, windowLaw_reset.1.bases, nofun, .nil, nofun, nofun⟩
  case sequence => exact ⟨by decide, nofun, nofun⟩
  case journal => exact ⟨rfl, nofun⟩
  case link => unfold LinkLaw; decide
  case readout => exact ⟨nofun, by decide⟩
end

section
open Sys2Proof Sys2Proof.Machine
/-! The intake of a command: the write of control page word 0 on a free bus with an idle CSU. -/

namespace Sys2Proof.Machine

/-! ## The word that carries a command -/

/-- An enabled byte 0 selects the data bits 7:0 (R180). -/
theorem byteMask_low {e : Byte} (h : e.getLsbD 0 = true) {i : Nat} (hi : i < 8) : (byteMask e).getLsbD i = true := by
  have hff : ∀ j : Fin 8, (0xFF : DWord).getLsbD j.val = true := by decide
  have h0 : (laneMask e 0).getLsbD i = true := by
    rw [laneMask, if_pos h, BitVec.shiftLeft_zero]
    exact hff ⟨i, hi⟩
  simp only [byteMask, BitVec.getLsbD_or, h0, Bool.true_or]

/-- The byte enables of a command's write select byte 0 (R175). -/
theorem enables_low (e : BitVec 7) : (e ++ 1#1).getLsbD 0 = true := by
  rw [BitVec.getLsbD_append]
  rfl

/-- The merge of a write that enables byte 0 and drives `code` there has `code` in bits 7:0 (R18, R175). -/
theorem mergeBytes_code (old : DWord) (rest : BitVec 56) (code : Byte) (e : BitVec 7) :
    (mergeBytes old (rest ++ code) (e ++ 1#1)).setWidth 8 = code := by
  apply BitVec.eq_of_getLsbD_eq
  intro i hi
  have hm := byteMask_low (enables_low e) hi
  have hcode : (rest ++ code).getLsbD i = code.getLsbD i := by rw [BitVec.getLsbD_append, if_pos hi]
  simp only [BitVec.getLsbD_setWidth, mergeBytes, BitVec.getLsbD_or, BitVec.getLsbD_and, BitVec.getLsbD_not, hm, hcode, hi]
  simp

/-- A write that enables byte 0 enables some byte (R19). -/
theorem enables_ne_zero (e : BitVec 7) : e ++ 1#1 ≠ (0 : Byte) := by
  intro h
  have h0 := enables_low e
  rw [h] at h0
  cases h0

theorem commandOf_code (c : Command) : commandOf c.code = some c := by cases c <;> rfl

/-! ## The command taken -/

/-- The state as a command's block finds it: the write merged into the shadow, and the result word of the intake (R18,
R159). -/
def intaken (code : Byte) (rest : BitVec 56) (e : BitVec 7) (s : State) : State :=
  intakeResult code (mergeShadow 0 (rest ++ code) (e ++ 1#1) s)

/-- The intake: word 0 of the shadow, the result word with DONE clear, and where that word waits (R18, R159, R167). -/
theorem intaken_spec (code : Byte) (rest : BitVec 56) (e : BitVec 7) (s : State) :
    ∃ q h, intaken code rest e s =
      { s with
        bpt :=
          { s.bpt with shadow := s.bpt.shadow.set 0 (mergeBytes s.bpt.shadow[0] (rest ++ code) (e ++ 1#1)) }
        csu :=
          { s.csu with
            result := { code := code, result := .ok, field := 0, done := false }, postQueue := q, resultHold := h } } := by
  obtain ⟨q, h, hf⟩ := formResult_spec { code := code, result := .ok, field := 0, done := false }
    (mergeShadow 0 (rest ++ code) (e ++ 1#1) s)
  exact ⟨q, h, hf⟩

/-- What the command `c` makes of the intake, with its operands in the shadow of words 1 to 3 (R158, R159). -/
def commanded (c : Command) (rest : BitVec 56) (e : BitVec 7) (s : State) : State :=
  runCommand c s.bpt.shadow[1] s.bpt.shadow[2] s.bpt.shadow[3] (intaken c.code rest e s)

/-- The word of the shadow that a write merges into (R18). -/
theorem shadowWord_merged (d : DWord) (e : Byte) (s : State) :
    shadowWord (mergeShadow 0 d e s) 0 = mergeBytes s.bpt.shadow[0] d e := by
  simp [shadowWord, mergeShadow]

/-- The other words of the shadow stand (R18). -/
theorem shadowWord_kept {i : Fin 16} (hi : i ≠ 0) (d : DWord) (e : Byte) (s : State) :
    shadowWord (mergeShadow 0 d e s) i = s.bpt.shadow[i] := by
  have h : ¬ 0 = i.val := fun h => hi (Fin.ext h.symm)
  simp [shadowWord, mergeShadow, h]

/-- The decode of a command's write on an idle CSU: the command is taken, and the write forwarded (R17, R159). -/
theorem decodeAccess_command {c : Command} {rest : BitVec 56} {check : Byte} {e : BitVec 7} {s : State}
    (hi : s.csu.running = none) :
    decodeAccess (commandAccess c.code rest check e) s = (.forwarded, commanded c rest e s) := by
  have hregion : regionOf s.windows (commandAccess c.code rest check e).addr = .control 0 := by
    have ha : (commandAccess c.code rest check e).addr.toNat = Config.controlBase := rfl
    rw [regionOf, ha, if_pos le_rfl, Nat.sub_self]
  have hbyte : (shadowWord (mergeShadow 0 (rest ++ c.code) (e ++ 1#1) s) 0).setWidth 8 = c.code := by
    rw [shadowWord_merged, mergeBytes_code]
  have htrigger : controlEvent 0 (mergeShadow 0 (rest ++ c.code) (e ++ 1#1) s) = commanded c rest e s := by
    have hidle : (mergeShadow 0 (rest ++ c.code) (e ++ 1#1) s).csu.running = none := hi
    simp only [controlEvent, commandTrigger, hidle, takeTrigger, hbyte, commandOf_code]
    rw [shadowWord_kept (by decide), shadowWord_kept (by decide), shadowWord_kept (by decide)]
    rfl
  simp only [decodeAccess, hregion]
  show (Treatment.forwarded, controlDecode 0 (rest ++ c.code) (e ++ 1#1) s) = _
  rw [controlDecode, if_neg (enables_ne_zero e), htrigger]

/-- A command's write on a free bus with an idle CSU: what the command makes of the intake, and the word in memory (R16,
R159). -/
theorem writeCommand_unreported {c : Command} {rest : BitVec 56} {check : Byte} {e : BitVec 7} {s : State}
    (hb : BusFree s) (hi : s.csu.running = none) (hc : (commanded c rest e s).rc.bclkQuiet = none)
    (hw : (commanded c rest e s).bpt.waitCount < 32) :
    (writeCommand c.code rest check e s).unreported =
      { (commanded c rest e s).unreported with
        mem := memDrive (commanded c rest e s).mem (commandAccess c.code rest check e) } := by
  rw [writeCommand, present_open hb.1, takeAccess_forwarded (decodeAccess_command hi) hc hw, driveAccess_unreported]
  rfl

/-- A command that completes at once on its intake (R159, R160). -/
theorem writeCommand_answered {c : Command} {rest : BitVec 56} {e : BitVec 7} {s : State} {r : ResultCode} {n : Nat}
    (check : Byte) (hb : BusFree s) (hi : s.csu.running = none)
    (h : commanded c rest e s = completeWith c.code r n (intaken c.code rest e s)) :
    (writeCommand c.code rest check e s).unreported = (answered c.code rest check e r n s).unreported := by
  obtain ⟨q, x, hs⟩ := intaken_spec c.code rest e s
  obtain ⟨q', x', hr⟩ := completeWith_spec c.code r n (intaken c.code rest e s)
  rw [hr, hs] at h
  rw [writeCommand_unreported hb hi (by rw [h]; exact hb.1.2.2) (by rw [h]; exact hb.2), h]
  rfl

/-- A command that goes on running from its intake (R159, R160). -/
theorem writeCommand_takenIn {c : Command} {rest : BitVec 56} {e : BitVec 7} {s : State} {x : Running}
    (check : Byte) (hb : BusFree s) (hi : s.csu.running = none)
    (h : commanded c rest e s = (intaken c.code rest e s).onCsu fun u => { u with running := some x }) :
    (writeCommand c.code rest check e s).unreported = (takenIn c.code rest check e x s).unreported := by
  obtain ⟨q, y, hs⟩ := intaken_spec c.code rest e s
  rw [hs] at h
  rw [writeCommand_unreported hb hi (by rw [h]; exact hb.1.2.2) (by rw [h]; exact hb.2), h]
  rfl

/-! ## The window commands -/

variable {rest : BitVec 56} {e : BitVec 7} {s : State}

@[simp] theorem intaken_role (code : Byte) : (intaken code rest e s).rc.role = s.rc.role := rfl
@[simp] theorem intaken_windows (code : Byte) : (intaken code rest e s).windows = s.windows := rfl

/-- DEFINE_WINDOW refused (R5). -/
theorem commanded_define_refused {r : ResultCode}
    (h : checkDefine s.rc.role s.windows (defineFields s.bpt.shadow[1] s.bpt.shadow[2] s.bpt.shadow[3]) = .error r) :
    commanded .defineWindow rest e s =
      completeWith Command.defineWindow.code r (totalRecords s.windows) (intaken Command.defineWindow.code rest e s) := by
  simp only [commanded, runCommand, commandDefine, intaken_role, intaken_windows, h]

/-- DEFINE_WINDOW accepted (R5, R160). -/
theorem commanded_define_accepted {k : Slot} {w : Window}
    (h : checkDefine s.rc.role s.windows (defineFields s.bpt.shadow[1] s.bpt.shadow[2] s.bpt.shadow[3]) = .ok (k, w)) :
    commanded .defineWindow rest e s =
      (intaken Command.defineWindow.code rest e s).onCsu fun u => { u with running := some (.define k w 0) } := by
  simp only [commanded, runCommand, commandDefine, intaken_role, intaken_windows, h]

/-- CLEAR_WINDOW outside INIT (R11). -/
theorem commanded_clear_role (h : s.rc.role ≠ .init) :
    commanded .clearWindow rest e s =
      completeWith Command.clearWindow.code .wrongRole (totalRecords s.windows)
        (intaken Command.clearWindow.code rest e s) := by
  have h' : (intaken Command.clearWindow.code rest e s).rc.role ≠ .init := h
  simp only [commanded, runCommand, commandClear, if_pos h', intaken_windows]

/-- CLEAR_WINDOW of a number that names no slot (R11). -/
theorem commanded_clear_refused (h : s.rc.role = .init) (hk : 7 < bitsOf s.bpt.shadow[1] 0 8) :
    commanded .clearWindow rest e s =
      completeWith Command.clearWindow.code .badArgument (totalRecords s.windows)
        (intaken Command.clearWindow.code rest e s) := by
  have hslot : slotOperand s.bpt.shadow[1] = none := dif_neg (by omega)
  simp only [commanded, runCommand, commandClear, intaken_role, intaken_windows, h, ne_eq, not_true_eq_false, if_false,
    hslot]

/-- CLEAR_WINDOW accepted (R11, R160). -/
theorem commanded_clear_accepted {k : Slot} (h : s.rc.role = .init) (hk : bitsOf s.bpt.shadow[1] 0 8 = k.val) :
    commanded .clearWindow rest e s =
      (intaken Command.clearWindow.code rest e s).onCsu fun u => { u with running := some (.clear k 0) } := by
  have hslot : slotOperand s.bpt.shadow[1] = some k := by
    rw [slotOperand, dif_pos (hk ▸ k.isLt)]
    exact congrArg some (Fin.ext hk)
  simp only [commanded, runCommand, commandClear, intaken_role, h, ne_eq, not_true_eq_false, if_false, hslot]

end Sys2Proof.Machine

/-- Settles O18: each command's effect on its intake, and the write of word 0 that carries it. -/
theorem windowCommandsTaken : Obligations.WindowCommandsTaken := by
  intro rest check e s hb hi
  exact ⟨fun r h => ⟨_, rfl, writeCommand_answered check hb hi (commanded_define_refused h)⟩,
    fun k w h => ⟨_, rfl, writeCommand_takenIn check hb hi (commanded_define_accepted h)⟩,
    fun h => ⟨_, rfl, writeCommand_answered check hb hi (commanded_clear_role h)⟩,
    fun h hk => ⟨_, rfl, writeCommand_answered check hb hi (commanded_clear_refused h hk)⟩,
    fun h k hk => ⟨_, rfl, writeCommand_takenIn check hb hi (commanded_clear_accepted h hk)⟩⟩
end

section
open Sys2Proof Sys2Proof.Machine
/-! What every effect of the part carries over from the state in which the step began: the form of the SSRAM, the rooms of
the lists, one place for each waiting request, the hold of a read, the frame being sent, and no stall but the one that
stood. -/

namespace Sys2Proof.Machine

/-! ## The posting queue -/

/-- The words pending after one more posting: the same, or one behind them (R166). -/
theorem postInto_words (w : Nat) (v : DWord) (q : List Posting) :
    (postInto w v q).map (·.word) =
      if w ∈ q.map (·.word) then q.map (·.word) else q.map (·.word) ++ [w] := by
  induction q with
  | nil => simp [postInto]
  | cons p q ih =>
    by_cases hp : p.word = w
    · simp [postInto, hp]
    · have hw : w ≠ p.word := fun h => hp h.symm
      simp only [postInto, hp, if_false, List.map_cons, ih, List.mem_cons, hw, false_or]
      split <;> simp

/-- The posting queue holds each word of the status page at most once (R166). -/
def PostsFit (q : List Posting) : Prop := (q.map (·.word)).Nodup ∧ ∀ p ∈ q, p.word < 64

theorem postsFit_iff (q : List Posting) :
    PostsFit q ↔ (q.map (·.word)).Nodup ∧ ∀ w ∈ q.map (·.word), w < 64 := by
  simp [PostsFit]

/-- A posting keeps the room of the posting queue (R166). -/
theorem PostsFit.postInto {q : List Posting} (h : PostsFit q) {w : Nat} (hw : w < 64) (v : DWord) :
    PostsFit (postInto w v q) := by
  rw [postsFit_iff] at h ⊢
  rw [postInto_words]
  split
  · exact h
  · rename_i hn
    refine ⟨h.1.append (List.nodup_singleton w) (by simpa using hn), fun x hx => ?_⟩
    rcases List.mem_append.1 hx with hx | hx
    · exact h.2 x hx
    · rw [List.mem_singleton.1 hx]
      exact hw

/-- The front of the posting queue leaves it (R167). -/
theorem PostsFit.tail {p : Posting} {q : List Posting} (h : PostsFit (p :: q)) : PostsFit q :=
  ⟨(List.nodup_cons.1 h.1).2, fun x hx => h.2 x (List.mem_cons_of_mem p hx)⟩

/-! ## Lengths -/

/-- The sent marks leave the length of the Journal Queue (R71). -/
theorem markSent_length (n : Nat) (q : List QueuedEntry) : (markSent n q).length = q.length := by
  induction q generalizing n with
  | nil => cases n <;> rfl
  | cons e q ih => cases n <;> simp [markSent, ih]

/-- A valid frame that counts leaves the link state and the frame being sent. -/
theorem markPeriod_endShort_aside (due : Bool) (l : Link) :
    (markPeriod due (endShort l)).state = l.state ∧ (markPeriod due (endShort l)).sending = l.sending := by
  unfold markPeriod
  split <;> simp [endShort_eq]

/-! ## The apply queue -/

section
variable (s : State)

@[simp] theorem raise_apply (n : Notice) : (raise n s).apply = s.apply := rfl
@[simp] theorem reportDiscard_apply (m : DiscardMarker) (k : Slot) (p : Nat) :
    (reportDiscard m k p s).apply = s.apply := rfl
@[simp] theorem setRole_apply (r : Role) : (setRole r s).apply = s.apply := rfl
@[simp] theorem adoptEpoch_apply : (adoptEpoch s).apply = s.apply := rfl
@[simp] theorem settleSeen_apply : (settleSeen s).apply = s.apply := by unfold settleSeen; split <;> rfl
@[simp] theorem queueAck_apply : (queueAck s).apply = s.apply := by unfold queueAck; split <;> rfl
@[simp] theorem freeRead_apply (b : State) : (freeRead b s).apply = s.apply := by
  obtain ⟨x, h, -⟩ := freeRead_spec b s
  rw [h]
@[simp] theorem handoverApplied_apply (e : Epoch) : (handoverApplied e s).apply = s.apply := by
  unfold handoverApplied
  split <;> rfl
@[simp] theorem completeWord_queue (k : Slot) (o : Nat) (m : Option (DWord × ReadClass)) :
    (completeWord k o m s).apply.queue = s.apply.queue := by
  unfold completeWord
  split <;> rfl

/-- The effects of a completed entry leave the apply queue (R106 to R113). -/
@[simp] theorem completionEffects_queue (b : SeqBody) (m : Option (DWord × ReadClass)) :
    (completionEffects b m s).apply.queue = s.apply.queue := by
  cases b with
  | journalBlock => simp only [completionEffects]; split <;> rfl
  | _ => simp [completionEffects]

end

/-- The completion of the head of the apply queue leaves the entries behind it (R109). -/
@[simp] theorem completeHead_queue (f : SeqFrame) (rest : List SeqFrame) (s : State) :
    (completeHead f rest s).apply.queue = rest := by
  simp [completeHead]

/-- Settling the offers leaves each request in one place (R31). -/
theorem settleOffers_once (s : State) (h : s.bpt.offers.Nodup) : (settleOffers s).bpt.offers.Nodup :=
  (settleOffers_law s h).1

/-- Room that ends a stall is a place in the Journal Queue (R72). -/
theorem stallHasRoom_room {s : State} (h : stallHasRoom s = true) : s.journals.queue.length < 128 := by
  unfold stallHasRoom at h
  split at h
  · split at h
    · simp only [Bool.and_eq_true] at h
      exact of_decide_eq_true h.2
    · cases h
  · cases h

/-- An item is chosen only while the in-flight list has room (R57). -/
theorem chooseItem_room {s : State} {c : Choice} (h : chooseItem s = some c) : s.disp.inFlight.length < 16 := by
  unfold chooseItem at h
  split at h
  · rename_i hs
    simp only [sendingCondition, Bool.and_eq_true, decide_eq_true_eq] at hs
    exact hs.2
  · cases h

/-! ## What is carried over -/

/-- What the effects of a step that began in `b` carry over to `s`. -/
structure Carried (b s : State) : Prop where
  mem     : MemoryLaw b → MemoryLaw s
  room    : RoomLaw b → RoomLaw s
  once    : b.bpt.offers.Nodup → s.bpt.offers.Nodup
  read    : ReadLaw b → ReadLaw s
  sending : SendingLaw b → SendingLaw s
  stall   : ∀ a n, s.bpt.held = .stall a n → b.bpt.held = .stall a n

namespace Carried

variable {b s t : State}

theorem refl (s : State) : Carried s s := ⟨id, id, id, id, id, fun _ _ h => h⟩

theorem trans (h : Carried b s) (h' : Carried s t) : Carried b t :=
  ⟨h'.mem ∘ h.mem, h'.room ∘ h.room, h'.once ∘ h.once, h'.read ∘ h.read, h'.sending ∘ h.sending,
    fun a n hs => h.stall a n (h'.stall a n hs)⟩

/-- Either branch. -/
theorem ite {p : Prop} [Decidable p] (h : p → Carried b s) (h' : ¬ p → Carried b t) :
    Carried b (if p then s else t) := by
  split
  · exact h ‹_›
  · exact h' ‹_›

/-! ### The blocks -/

theorem onRc {f : RoleController → RoleController} (h : Carried b s) : Carried b (s.onRc f) :=
  h.trans ⟨id, id, id, id, id, fun _ _ h => h⟩
theorem onPass {f : PassEngine → PassEngine} (h : Carried b s) : Carried b (s.onPass f) :=
  h.trans ⟨id, id, id, id, id, fun _ _ h => h⟩
theorem onRts {f : Rts → Rts} (h : Carried b s) : Carried b (s.onRts f) :=
  h.trans ⟨id, id, id, id, id, fun _ _ h => h⟩

/-- A change of the Dispatcher within the room of the in-flight list (R65). -/
theorem onDisp {f : Dispatcher → Dispatcher} (h : Carried b s)
    (hl : s.disp.inFlight.length ≤ 16 → (f s.disp).inFlight.length ≤ 16) : Carried b (s.onDisp f) :=
  h.trans ⟨id, fun ⟨h1, h2, h3⟩ => ⟨h1, hl h2, h3⟩, id, id, id, fun _ _ h => h⟩

/-- A change of the journals within the room of the Journal Queue (R71). -/
theorem onJournals {f : Journals → Journals} (h : Carried b s)
    (hl : s.journals.queue.length ≤ 128 → (f s.journals).queue.length ≤ 128) :
    Carried b (s.onJournals f) :=
  h.trans ⟨id, fun ⟨h1, h2, h3, h4⟩ => ⟨h1, h2, hl h3, h4⟩, id, id, id, fun _ _ h => h⟩

/-- A change of the link that starts no frame outside HELLO and UP (R56). -/
theorem onLink {f : Link → Link} (h : Carried b s)
    (hl : ((s.link.sending ≠ none → s.link.state = .hello ∨ s.link.state = .up) →
      (f s.link).sending ≠ none → (f s.link).state = .hello ∨ (f s.link).state = .up)) :
    Carried b (s.onLink f) :=
  h.trans ⟨id, id, id, id, hl, fun _ _ h => h⟩

/-- A change of the Apply Engine that leaves its queue. -/
theorem onApply {f : ApplyEngine → ApplyEngine} (h : Carried b s)
    (hq : (f s.apply).queue = s.apply.queue) : Carried b (s.onApply f) :=
  h.trans
    ⟨id, fun ⟨h1, h2, h3, h4, h5⟩ => ⟨h1, h2, h3, by simpa [hq] using h4, h5⟩, id,
      fun hr a ha => by simpa [covered, hq] using hr a ha, id, fun _ _ h => h⟩

/-- A change of the Control and Status Unit within the room of its posting queue (R166). -/
theorem onCsu {f : Csu → Csu} (h : Carried b s)
    (hq : PostsFit s.csu.postQueue → PostsFit (f s.csu).postQueue) : Carried b (s.onCsu f) :=
  h.trans
    ⟨id, fun ⟨h1, h2, h3, h4, h5⟩ => ⟨h1, h2, h3, h4, hq h5⟩, id, id, id, fun _ _ h => h⟩

/-- A change of the bus path that leaves the hold and keeps the waiting rule's bounds (R31). -/
theorem onBpt {f : Bpt → Bpt} (h : Carried b s) (hh : (f s.bpt).held = s.bpt.held)
    (hc : s.bpt.waitCount ≤ 32 → (f s.bpt).waitCount ≤ 32)
    (ho : s.bpt.offers.Nodup → (f s.bpt).offers.Nodup) : Carried b (s.onBpt f) :=
  h.trans
    ⟨id, fun ⟨h1, h2⟩ => ⟨hc h1, h2⟩, ho, fun hr a ha => hr a (hh ▸ ha), id, fun _ _ hs => hh ▸ hs⟩

/-- A word of the SSRAM written. -/
theorem onMem {a : Addr} {f : Memory → MWord} (h : Carried b s) :
    Carried b (s.onMem fun m => memWrite m a (f m)) :=
  h.trans ⟨fun hm => memWrite_wf _ _ _ hm, id, id, id, id, fun _ _ h => h⟩

theorem draw (h : Carried b s) : Carried b s.draw :=
  h.trans ⟨id, id, id, id, id, fun _ _ h => h⟩

/-- A hold that ends, or that waits for its memory cycle alone (R16, R30). -/
theorem holds {x : Held} (h : Carried b s) (hr : ∀ a, x ≠ .read a) (hs : ∀ a n, x ≠ .stall a n) :
    Carried b (s.onBpt fun p => { p with held := x }) :=
  h.trans ⟨id, id, id, fun _ a ha => absurd ha (hr a), id, fun a n ha => absurd ha (hs a n)⟩

theorem endHold (h : Carried b s) : Carried b (endHold s) := h.holds nofun nofun

/-! ### Reports -/

theorem raise {n : Notice} (h : Carried b s) : Carried b (raise n s) := h.onCsu (by exact id)
theorem driveInt (h : Carried b s) : Carried b (driveInt s) := h.onCsu (by exact id)
theorem reportDiscard {m : DiscardMarker} {k : Slot} {p : Nat} (h : Carried b s) :
    Carried b (reportDiscard m k p s) := (h.onCsu (by exact id)).raise
theorem post {w : Nat} {v : DWord} (h : Carried b s) (hw : w < 64) : Carried b (post w v s) :=
  h.onCsu fun hq => hq.postInto hw v

theorem postChanged {u : State} (h : Carried b s) (ws : List Nat) (hw : ∀ w ∈ ws, w < 64) :
    Carried b (postChanged u ws s) := by
  induction ws generalizing s with
  | nil => exact h
  | cons w ws ih =>
    exact ih (ite (fun _ => h) fun _ => h.post (hw w (by simp))) fun x hx => hw x (by simp [hx])

theorem formResult {r : ResultWord} (h : Carried b s) : Carried b (formResult r s) := by
  refine h.onCsu fun hq => ?_
  split
  · exact hq
  · exact hq.postInto (by decide) _

theorem intakeResult {c : Byte} (h : Carried b s) : Carried b (intakeResult c s) := h.formResult
theorem completeWith {c : Byte} {r : ResultCode} {n : Nat} (h : Carried b s) : Carried b (completeWith c r n s) :=
  h.formResult.raise.onCsu (by exact id)
theorem endSwitchover {r : ResultCode} (h : Carried b s) : Carried b (endSwitchover r s) :=
  ite (fun _ => h.completeWith) fun _ => h

theorem postCounts (h : Carried b s) (ws : List Nat) (hw : ∀ w ∈ ws, w < 64) : Carried b (postCounts ws s) := by
  induction ws generalizing s with
  | nil => exact h
  | cons w ws ih =>
    exact ih (ite (fun _ => h) fun _ => (h.post (hw w (by simp))).onCsu (by exact id)) fun x hx => hw x (by simp [hx])

/-! ### Tags and journals -/

theorem tagEvent {e : TagEvent} {i : Nat} (h : Carried b s) : Carried b (tagEvent e i s) := h.onRts

theorem recordEvent {e : TagEvent} {k : Slot} {i : Nat} (h : Carried b s) : Carried b (recordEvent e k i s) := by
  unfold Machine.recordEvent
  split
  · exact h.tagEvent
  · exact h

theorem recordAcked {k : Slot} {i : Nat} (h : Carried b s) : Carried b (recordAcked k i s) := by
  unfold Machine.recordAcked
  split
  · exact ite (fun _ => h.tagEvent.onRts) fun _ => h.tagEvent
  · exact h

theorem bulkClear (h : Carried b s) : Carried b (bulkClear s) := h.onRts
theorem handoffSweep (h : Carried b s) : Carried b (handoffSweep s) := h.onRts
theorem setJournalState {k : Slot} {x : Option JournalState} (h : Carried b s) :
    Carried b (setJournalState k x s) := h.onJournals (by exact id)
theorem enterDesync {k : Slot} (h : Carried b s) : Carried b (enterDesync k s) :=
  ite (fun _ => h.setJournalState.raise) fun _ => h

theorem desyncSlots (h : Carried b s) (l : List Slot) : Carried b (desyncSlots l s) := by
  induction l generalizing s with
  | nil => exact h
  | cons k l ih => exact ih h.enterDesync

theorem emptyJournals (h : Carried b s) : Carried b (emptyJournals s) :=
  (h.onJournals (f := fun j => { j with queue := [] }) fun _ => Nat.zero_le 128).desyncSlots _

/-- An entry appended where the queue has room (R72). -/
theorem appendEntry {e : JournalEntry} (h : Carried b s) (hl : s.journals.queue.length < 128) :
    Carried b (appendEntry e s) :=
  h.onJournals fun _ => by simpa using hl

theorem dropFront (h : Carried b s) : Carried b (dropFront s) :=
  h.onJournals fun hl => by simp only [List.length_tail]; omega

theorem insertBlock {k : Slot} {p n : Nat} (h : Carried b s) (hl : s.journals.queue.length < 128) :
    Carried b (insertBlock k p n s) := (h.appendEntry hl).setJournalState

theorem copyInStep (h : Carried b s) : Carried b (copyInStep s) := h.onJournals (by exact id)
theorem copyAcked {k : Slot} (h : Carried b s) : Carried b (copyAcked k s) :=
  ite (fun _ => h.setJournalState) fun _ => h

/-! ### The Dispatcher -/

/-- An item joins the in-flight list where it has room (R57, R65). -/
theorem joinInFlight {i : Item} {r : Option (Fin 4)} (h : Carried b s) (hl : s.disp.inFlight.length < 16) :
    Carried b (joinInFlight i r s) :=
  (h.onDisp fun _ => by simpa using hl).onLink (by exact id)

theorem occupy {r : Fin 4} {i : ReadItem} (h : Carried b s) : Carried b (occupy r i s) := h.onDisp id

theorem remarkSent (h : Carried b s) : Carried b (remarkSent s) :=
  h.onJournals fun hl => by rw [markSent_length]; exact hl

theorem clearArm {c : ControlItem} (h : Carried b s) : Carried b (s.onDisp (clearArm c)) :=
  h.onDisp (by cases c <;> exact id)

theorem setArm {c : ControlItem} (h : Carried b s) : Carried b (s.onDisp (setArm c)) :=
  h.onDisp (by cases c <;> exact id)

theorem abandonReadout {e : InFlight} (h : Carried b s) : Carried b (s.onDisp (abandonReadout e)) :=
  h.onDisp (by unfold Machine.abandonReadout; split <;> exact id)

theorem startItem {c : Choice} (h : Carried b s) (hl : s.disp.inFlight.length < 16) : Carried b (startItem c s) := by
  unfold Machine.startItem
  split
  · rename_i i
    exact (h.clearArm.onPass).joinInFlight (by cases i <;> exact hl)
  · split
    · exact (h.joinInFlight hl).remarkSent
    · split
      · exact (h.occupy.joinInFlight hl).remarkSent
      · exact h
  · split
    · exact ((h.tagEvent.onRts.onDisp (by exact id)).occupy).joinInFlight hl
    · exact h

theorem countCorrected {c : ReadClass} (h : Carried b s) : Carried b (countCorrected c s) :=
  ite (fun _ => h.onDisp (by exact id)) fun _ => h

theorem takeWord {e : InFlight} {r : Fin 4} {ro : Readout} {c : ReadClass} {d : DWord} (h : Carried b s) :
    Carried b (takeWord e r ro c d s) := by
  unfold Machine.takeWord
  split
  · split
    · exact h
    · refine ite (fun _ => reportDiscard (onDisp h ?_)) fun _ => onDisp h ?_ <;>
        exact fun hl => by simpa [setReadout, onEntry] using hl
  · exact ite (fun _ => (h.onDisp id).reportDiscard) fun _ => h.onDisp id

theorem readoutWord (h : Carried b s) : Carried b (readoutWord s) := by
  unfold Machine.readoutWord
  (repeat' split) <;> first | exact h | exact h.countCorrected.takeWord

theorem restartReadout {k : Slot} {i : Nat} (h : Carried b s) : Carried b (restartReadout k i s) := by
  unfold Machine.restartReadout
  split
  · exact h
  · split
    · exact ite (fun _ => (h.onDisp id).recordEvent) fun _ => h
    · exact h

theorem capture {k : Slot} {w : RecordWindow} {i p : Nat} (h : Carried b s) : Carried b (capture k w i p s) :=
  ite (fun _ => h.tagEvent) fun _ => h.tagEvent.restartReadout

theorem restartAckTimer (h : Carried b s) : Carried b (restartAckTimer s) := h.onDisp (by exact id)

theorem entryGoneBack {e : InFlight} (h : Carried b s) : Carried b (entryGoneBack e s) := by
  unfold Machine.entryGoneBack
  split
  · exact h.abandonReadout.recordEvent
  · exact h.abandonReadout
  · exact h.abandonReadout.setArm.onPass

theorem entriesGoneBack (h : Carried b s) (l : List InFlight) : Carried b (entriesGoneBack l s) := by
  induction l generalizing s with
  | nil => exact h
  | cons e l ih => exact ih h.entryGoneBack

/-- A go-back leaves a frame being sent only where one was (R59). -/
theorem cutSending {l : List InFlight} (h : Carried b s) : Carried b (cutSending l s) := by
  unfold Machine.cutSending
  split
  · rename_i hx
    refine ite (fun _ => h.draw.onLink fun hs _ => hs ?_) fun _ => h
    simp [hx]
  · exact h

theorem goBackFrom {e : SeqNo} (h : Carried b s) : Carried b (goBackFrom e s) := by
  refine ite (fun _ => ?_) fun _ => h
  refine restartAckTimer (onLink (cutSending (remarkSent (entriesGoneBack (onDisp h fun hl => ?_) _))) (by exact id))
  simp only [List.length_take]
  omega

theorem clearDispatcher (h : Carried b s) : Carried b (clearDispatcher s) := h.onDisp fun _ => Nat.zero_le 16

theorem recordsGoneBack (h : Carried b s) (l : List InFlight) : Carried b (recordsGoneBack l s) := by
  induction l generalizing s with
  | nil => exact h
  | cons e l ih =>
    refine ih ?_
    split
    · exact h.recordEvent
    · exact h

theorem emptyGoingBack (h : Carried b s) : Carried b (emptyGoingBack s) :=
  (h.recordsGoneBack _).clearDispatcher.emptyJournals

theorem emptyCleared (h : Carried b s) : Carried b (emptyCleared s) := h.clearDispatcher.emptyJournals

/-! ### The passes -/

theorem abortSync (h : Carried b s) : Carried b (abortSync s) := h.onPass.onRts
theorem stopRefresh (h : Carried b s) : Carried b (stopRefresh s) := h.onPass
theorem beginRefresh (h : Carried b s) : Carried b (beginRefresh s) := h.onPass
theorem restartSync (h : Carried b s) : Carried b (restartSync s) := h.onRts.copyInStep.onPass
theorem armSyncBegin (h : Carried b s) : Carried b (armSyncBegin s) := h.onDisp (by exact id)
theorem startSync (h : Carried b s) : Carried b (startSync s) := h.restartSync.armSyncBegin

theorem resyncNow (h : Carried b s) : Carried b (resyncNow s) := by
  unfold Machine.resyncNow
  split
  · exact h.startSync
  · exact (ite (fun _ => h) fun _ => h.armSyncBegin).restartSync
  · exact ((ite (fun _ => h) fun _ => h.armSyncBegin).onDisp (by exact id)).restartSync

theorem completeSync (h : Carried b s) : Carried b (completeSync s) := h.onPass.onDisp (by exact id)
theorem syncDoneAcked {q : SeqNo} (h : Carried b s) : Carried b (syncDoneAcked q s) :=
  ite (fun _ => h.onPass.onRts.raise) fun _ => h
theorem syncStep (h : Carried b s) : Carried b (syncStep s) := by
  unfold Machine.syncStep
  exact h.tagEvent.onPass

theorem refreshStep (h : Carried b s) : Carried b (refreshStep s) := by
  unfold Machine.refreshStep
  refine onPass ?_
  split
  · exact h.recordEvent
  · exact h

theorem nextRefresh (h : Carried b s) : Carried b (nextRefresh s) := h.onPass
theorem pairingDecision (h : Carried b s) : Carried b (pairingDecision s) :=
  (ite (fun _ => h) fun _ => h.startSync).beginRefresh
theorem decideIfPaired (h : Carried b s) : Carried b (decideIfPaired s) :=
  ite (fun _ => h.pairingDecision) fun _ => h

/-! ### The Role Controller -/

theorem setRole {r : Role} (h : Carried b s) : Carried b (setRole r s) := h.onRc.raise.post (by decide)
theorem settleSeen (h : Carried b s) : Carried b (settleSeen s) := ite (fun _ => h.onLink (by exact id)) fun _ => h

/-- The apply queue replaced by one no longer, where a read that its departed entries alone covered is released (R29). -/
theorem leavesQueue {f : ApplyEngine → ApplyEngine} (h : Carried b s)
    (hl : (f s.apply).queue.length ≤ s.apply.queue.length) : Carried b (freeRead s (s.onApply f)) := by
  obtain ⟨x, hx, -, hkeep, hread⟩ := freeRead_spec s (s.onApply f)
  rw [hx]
  refine h.trans ⟨id, fun ⟨h1, h2, h3, h4, h5⟩ => ⟨h1, h2, h3, hl.trans h4, h5⟩, id, fun hr a ha => ?_, id,
    fun a n ha => ?_⟩
  · rcases hs : s.bpt.held with _ | c | ⟨c, n⟩ | c
    case read =>
      have hxc := hread c hs
      rw [show x = .read a from ha] at hxc
      split at hxc
      · cases hxc
      · rename_i hn
        cases hxc
        exact Bool.eq_true_of_not_eq_false fun hf => hn ⟨hr a hs, hf⟩
    all_goals
      have : x = s.bpt.held := hkeep (by simp [hs])
      rw [show x = .read a from ha, hs] at this
      cases this
  · by_contra hs
    by_cases hrd : ∃ c, s.bpt.held = .read c
    · obtain ⟨c, hc⟩ := hrd
      have hxc := hread c hc
      rw [show x = .stall a n from ha] at hxc
      split at hxc <;> cases hxc
    · exact hs ((hkeep (by simpa using hrd)).symm.trans ha)

theorem emptyApply (h : Carried b s) : Carried b (emptyApply s) := (h.leavesQueue (Nat.zero_le _)).settleSeen
theorem adoptEpoch (h : Carried b s) : Carried b (adoptEpoch s) := h.onRc
theorem leaveHandoff (h : Carried b s) : Carried b (leaveHandoff s) := h.onRc
theorem clearReplication (h : Carried b s) : Carried b (clearReplication s) :=
  h.bulkClear.emptyCleared.abortSync.stopRefresh
theorem promote (h : Carried b s) : Carried b (promote s) := h.onRc.setRole.clearReplication.decideIfPaired
theorem promoteIfDrained (h : Carried b s) : Carried b (promoteIfDrained s) := ite (fun _ => h.promote) fun _ => h
theorem takeOverNow (h : Carried b s) : Carried b (takeOverNow s) := h.setRole.promoteIfDrained
theorem judgeLost (h : Carried b s) : Carried b (judgeLost s) := ite (fun _ => h.takeOverNow) fun _ => h
theorem judgeNoActive {u : State} (h : Carried b s) : Carried b (judgeNoActive u s) :=
  ite (fun _ => ite (fun _ => h.takeOverNow) fun _ => h.raise) fun _ => h
theorem judgeTakeover {u : State} (h : Carried b s) : Carried b (judgeTakeover u s) := h.judgeLost.judgeNoActive
theorem demote {x : SyncState} (h : Carried b s) : Carried b (demote x s) :=
  h.leaveHandoff.setRole.clearReplication.emptyApply.onRc
theorem handoffSucceeds (h : Carried b s) : Carried b (handoffSucceeds s) := h.onRc.demote.endSwitchover
theorem handoffReturns {r : ResultCode} (h : Carried b s) : Carried b (handoffReturns r s) :=
  h.leaveHandoff.setRole.endSwitchover
theorem judgeConverged (h : Carried b s) : Carried b (judgeConverged s) := ite (fun _ => h.onRc.onDisp (by exact id)) fun _ => h
theorem demoteDual (h : Carried b s) : Carried b (demoteDual s) := h.demote.adoptEpoch.endSwitchover
theorem dualClaimDetected (h : Carried b s) : Carried b (dualClaimDetected s) :=
  ite (fun _ => h.raise.demoteDual) fun _ => h.raise
theorem enterReleased (h : Carried b s) : Carried b (enterReleased s) :=
  h.leaveHandoff.setRole.clearReplication.emptyApply.onRc.endSwitchover
theorem releaseIfHeld (h : Carried b s) : Carried b (releaseIfHeld s) := ite (fun _ => h.enterReleased) fun _ => h
theorem startLiveness (h : Carried b s) : Carried b (startLiveness s) := h.onRc

theorem peerRoleChanged {old : Role} (h : Carried b s) : Carried b (peerRoleChanged old s) :=
  ite (fun _ => h.handoffSucceeds) fun _ =>
    ite (fun _ => ite (fun _ => h.emptyGoingBack.abortSync.stopRefresh.handoffReturns)
      fun _ => h.emptyGoingBack.abortSync.stopRefresh) fun _ =>
    ite (fun _ => h.decideIfPaired) fun _ => ite (fun _ => h.handoffReturns) fun _ => h

theorem updatePeer {p : PeerRecord} (h : Carried b s) : Carried b (updatePeer p s) := by
  have h' : Carried b (if s.rc.role = .standby then Machine.adoptEpoch (s.onLink fun l => { l with peer := p })
      else s.onLink fun l => { l with peer := p }) := ite (fun _ => (h.onLink (by exact id)).adoptEpoch) fun _ => h.onLink (by exact id)
  exact ite (fun _ => h'.peerRoleChanged) fun _ => h'

/-! ### The Pairing Link -/

theorem dropLink {v : PeerView} (h : Carried b s) : Carried b (dropLink v s) :=
  (h.onLink fun _ hx => absurd rfl hx).raise

theorem leaveUp {v : PeerView} (h : Carried b s) : Carried b (leaveUp v s) :=
  ite (fun _ => h.dropLink.demote.endSwitchover) fun _ =>
    ite (fun _ => h.dropLink.emptyGoingBack.abortSync.stopRefresh.handoffReturns)
      fun _ => h.dropLink.emptyGoingBack.abortSync.stopRefresh

theorem enterTrain (h : Carried b s) : Carried b (enterTrain s) := h.onLink fun _ hx => absurd rfl hx
theorem toTrain {v : PeerView} (h : Carried b s) : Carried b (toTrain v s) :=
  ite (fun _ => h.leaveUp.enterTrain) fun _ => h.enterTrain

theorem loseAlignment (h : Carried b s) : Carried b (loseAlignment s) := by
  unfold Machine.loseAlignment
  split
  · exact h
  · exact h.onLink (by exact id)
  · exact h.toTrain

theorem retrain (h : Carried b s) : Carried b (retrain s) := ite (fun _ => h.toTrain) fun _ => h
theorem enterHello (h : Carried b s) : Carried b (enterHello s) := h.onLink fun _ _ => .inl rfl
theorem goUp (h : Carried b s) : Carried b (goUp s) :=
  ((((h.raise.onLink fun _ _ => .inr rfl).onApply (by rfl)).onDisp (by exact id))).decideIfPaired
theorem tryUp (h : Carried b s) : Carried b (tryUp s) := ite (fun _ => h.goUp) fun _ => h
theorem goIncompatible (h : Carried b s) : Carried b (goIncompatible s) :=
  (h.onLink fun _ hx => absurd rfl hx).raise
theorem judgeHelloClaim {x : HelloFrame} (h : Carried b s) : Carried b (judgeHelloClaim x s) :=
  ite (fun _ => h.dualClaimDetected) fun _ => h
theorem helloInHello {x : HelloFrame} (h : Carried b s) : Carried b (helloInHello x s) :=
  ite (fun _ => (h.updatePeer.onLink (by exact id)).judgeHelloClaim.settleSeen.tryUp) fun _ => h.goIncompatible.judgeHelloClaim
theorem helloInUp {x : HelloFrame} (h : Carried b s) : Carried b (helloInUp x s) := h.updatePeer.judgeHelloClaim

/-- A change of the link that leaves its state and the frame being sent. -/
theorem onLinkAside {f : Link → Link} (h : Carried b s) (hs : (f s.link).state = s.link.state)
    (hx : (f s.link).sending = s.link.sending) : Carried b (s.onLink f) :=
  h.onLink fun hl => by rw [hs, hx]; exact hl

theorem countFrame (h : Carried b s) : Carried b (countFrame s) :=
  h.onLinkAside (markPeriod_endShort_aside ..).1 (markPeriod_endShort_aside ..).2
theorem dropInvalid (h : Carried b s) : Carried b (dropInvalid s) :=
  h.onLinkAside (by simp [endShort_eq]) (by simp [endShort_eq])
theorem endShort (h : Carried b s) : Carried b (s.onLink endShort) :=
  h.onLinkAside (by simp [endShort_eq]) (by simp [endShort_eq])
theorem passFrame (h : Carried b s) : Carried b (passFrame s) := ite (fun _ => h.onLink (by exact id)) fun _ => h

theorem takeHello {x : HelloFrame} (h : Carried b s) : Carried b (takeHello x s) := by
  unfold Machine.takeHello
  split
  · exact h.countFrame.enterHello.helloInHello
  · exact h.countFrame.helloInHello
  · exact h.countFrame.helloInUp
  · exact h.countFrame

theorem meetGap (h : Carried b s) : Carried b (meetGap s) := ite (fun _ => h) fun _ => h.onLink (by exact id)

/-- A frame accepted where the apply queue has room (R95, R103). -/
theorem acceptFrame {f : SeqFrame} (h : Carried b s) (hl : s.apply.queue.length < 16) :
    Carried b (acceptFrame f s) := by
  have h' : Carried s (s.onApply fun a => { a with queue := a.queue ++ [f] }) :=
    ⟨id, fun ⟨h1, h2, h3, _, h5⟩ => ⟨h1, h2, h3, by simpa using hl, h5⟩, id,
      fun hr a ha => by simpa [covered] using Or.inl (hr a ha), id, fun _ _ h => h⟩
  exact (h.trans h').onLink (by exact id)

theorem judgeSequenced {f : SeqFrame} (h : Carried b s) : Carried b (judgeSequenced f s) :=
  ite (fun _ => ite (fun hl => h.acceptFrame hl) fun _ => (h.onLink (by exact id)).meetGap) fun _ =>
    ite (fun _ => h.onLink (by exact id)) fun _ => ite (fun _ => h.meetGap) fun _ => h

theorem receiveByte {k : ByteKind} (h : Carried b s) : Carried b (receiveByte k s) := by
  unfold Machine.receiveByte
  split
  · exact h
  · refine ite (fun _ => ?_) fun _ => ite (fun _ => h.onLink (by exact id)) fun _ => h.onLink (by exact id)
    split
    · exact h.enterHello
    · exact ite (fun _ => h.loseAlignment) fun _ => h.onLink (by exact id)
    · exact h.onLink (by exact id)
  · split
    · exact h.loseAlignment
    · exact ite (fun _ => h.loseAlignment) fun _ => h.onLink (by exact id)
    · exact h.onLink (by exact id)

theorem entryAcked {e : InFlight} (h : Carried b s) : Carried b (entryAcked e s) := by
  unfold Machine.entryAcked
  split
  · exact h.recordAcked
  · exact h.dropFront
  · exact ite (fun _ => h.dropFront.copyAcked) fun _ => h.dropFront
  · exact h
  · exact h.syncDoneAcked
  · exact ite (fun _ => h.handoffSucceeds) fun _ => h

theorem acknowledge (h : Carried b s) (n : Nat) : Carried b (acknowledge n s) := by
  induction n generalizing s with
  | zero => exact h
  | succ n ih =>
    unfold Machine.acknowledge
    split
    · exact h
    · rename_i e rest hin
      have h1 : Carried b (s.onDisp fun d => { d with inFlight := rest }) :=
        h.onDisp fun hl => by rw [hin] at hl; exact Nat.le_of_succ_le hl
      exact ih (h1.abandonReadout (e := e)).entryAcked

theorem resolveApplied {a : SeqNo} (h : Carried b s) : Carried b (resolveApplied a s) :=
  ite (fun _ => (h.acknowledge _).restartAckTimer.judgeConverged) fun _ =>
    ite (fun _ => h) fun _ => ite (fun _ => h) fun _ => h.onLink (by exact id)

theorem enterHeartbeat {x : HeartbeatFrame} (h : Carried b s) : Carried b (enterHeartbeat x s) :=
  h.updatePeer.judgeTakeover
theorem takeHeartbeat {x : HeartbeatFrame} {y : Bool} (h : Carried b s) : Carried b (takeHeartbeat x y s) :=
  ite (fun _ => ite (fun _ => h.resolveApplied.enterHeartbeat) fun _ => h.enterHeartbeat.resolveApplied) fun _ => h
theorem losePeer (h : Carried b s) : Carried b (losePeer s) :=
  ite (fun _ => h.raise.toTrain) fun _ => h.raise.onLink (by exact id)
theorem periodBoundary (h : Carried b s) : Carried b (periodBoundary s) :=
  ite (fun _ => (h.onLink (by exact id)).losePeer.judgeLost) fun _ => h.onLink (by exact id)

/-- A frame started in HELLO or UP (R56). -/
theorem startFrame {f : Frame} (h : Carried b s) (hl : s.link.state = .hello ∨ s.link.state = .up) :
    Carried b (startFrame f s) := h.onLink fun _ _ => hl

theorem markTransmitted {e : InFlight} (h : Carried b s) : Carried b (s.onDisp (markTransmitted e)) :=
  h.onDisp fun hl => by
    unfold Machine.markTransmitted
    split <;> simpa [setReadout, onEntry] using hl

theorem transmitNext (h : Carried b s) (hl : s.link.state = .hello ∨ s.link.state = .up) :
    Carried b (transmitNext s) := by
  refine ite (fun _ => (h.onLink (by exact id)).startFrame hl) fun _ => ite (fun _ => ((h.onLink (by exact id)).onApply (by rfl)).startFrame hl) fun _ =>
    ite (fun _ => (h.onLink (by exact id)).startFrame hl) fun _ => ite (fun _ => (h.onLink (by exact id)).startFrame hl) fun _ => ?_
  split
  · exact ite (fun _ => h.markTransmitted.startFrame hl) fun _ => h
  · exact h

/-! ### The Apply Engine -/

theorem completeWord {k : Slot} {o : Nat} {m : Option (DWord × ReadClass)} (h : Carried b s) :
    Carried b (completeWord k o m s) := by
  unfold Machine.completeWord
  split
  · exact (h.onApply (by rfl)).reportDiscard
  · exact h.onApply (by rfl)

theorem handoverApplied {e : Epoch} (h : Carried b s) : Carried b (handoverApplied e s) :=
  ite (fun _ => (h.onLink (by exact id)).adoptEpoch.setRole) fun _ => h.onLink (by exact id)

theorem completionEffects {x : SeqBody} {m : Option (DWord × ReadClass)} (h : Carried b s) :
    Carried b (completionEffects x m s) := by
  cases x with
  | record => exact h
  | tombstone => exact h
  | discard => exact h.reportDiscard
  | journalWord => exact h.completeWord
  | journalBlock => exact ite (fun _ => h.raise) fun _ => h
  | syncBegin => exact h.onRc (f := fun c => { c with sync := .syncing })
  | syncDone => exact h.onPass.onRc.raise
  | handover => exact h.handoverApplied

theorem queueAck (h : Carried b s) : Carried b (queueAck s) := ite (fun _ => h.onLink (by exact id)) fun _ => h

theorem completeHead {f : SeqFrame} {rest : List SeqFrame} (h : Carried b s)
    (hl : rest.length ≤ s.apply.queue.length) : Carried b (completeHead f rest s) :=
  (h.leavesQueue hl).completionEffects.queueAck.settleSeen

theorem completeImmediate {l : List SeqFrame} (h : Carried b s) (hl : l.length ≤ s.apply.queue.length) :
    Carried b (completeImmediate l s) := by
  induction l generalizing s with
  | nil => exact h
  | cons f l ih =>
    refine ite (fun _ => ih (h.completeHead (Nat.le_of_succ_le hl)) ?_) fun _ => h
    rw [completeHead_queue]

theorem settleQueue (h : Carried b s) : Carried b (settleQueue s) :=
  (ite (fun _ => h.completeImmediate le_rfl) fun _ => h).promoteIfDrained

theorem applyWrite (h : Carried b s) : Carried b (applyWrite s) := by
  unfold Machine.applyWrite
  split
  · rename_i a d f rest _ hq
    have h1 : Carried b ((s.onMem fun m => memWrite m a (codedWord d)).onApply fun x =>
        { x with written := x.written + 1 }) := h.onMem.onApply (by rfl)
    refine ite (fun _ => (h1.completeHead ?_).settleQueue.judgeTakeover) fun _ => h1
    exact hq ▸ Nat.le_succ _
  · exact h

theorem applyRead (h : Carried b s) : Carried b (applyRead s) := by
  unfold Machine.applyRead
  split
  · split
    · exact h.countCorrected.onApply (by dsimp only)
    · exact h
  · exact h

theorem applyGrant (h : Carried b s) : Carried b (applyGrant s) := ite (fun _ => h.applyRead) fun _ => h.applyWrite

/-! ### The memory port -/

theorem settleOffers (h : Carried b s) : Carried b (settleOffers s) := by
  unfold Machine.settleOffers
  refine h.onBpt rfl (fun hc => ?_) fun ho => settleOffers_once s ho
  show (if _ then 0 else s.bpt.waitCount) ≤ 32
  split
  · exact Nat.zero_le 32
  · exact hc

theorem close {u : State} (h : Carried b s) : Carried b (close u s) :=
  (h.driveInt.postChanged stateWords (by decide)).settleOffers

theorem postingWrite (h : Carried b s) : Carried b (postingWrite s) := by
  unfold Machine.postingWrite
  split
  · exact h
  · rename_i p rest hq
    have h1 : Carried b ((s.onMem fun m => memWrite m (BitVec.ofNat 19 (Config.statusBase + p.word))
        (codedWord p.value)).onCsu fun c => { c with postQueue := rest }) :=
      h.onMem.onCsu fun hp => (hq ▸ hp : PostsFit (p :: rest)).tail
    refine ite (fun _ => ?_) fun _ => h1
    split
    · exact h1.onCsu fun hp => hp.postInto (by decide) _
    · exact h1

theorem serve {c : PortClass} (h : Carried b s) : Carried b (serve c s) := by
  cases c with
  | apply => exact h.applyGrant
  | readout => exact h.readoutWord
  | status => exact h.postingWrite

theorem grantPart {c : PortClass} (h : Carried b s) : Carried b (grantPart c s) :=
  (h.onBpt rfl (fun _ => Nat.zero_le 32) fun ho => ho.filter _).serve

theorem driveAccess {a : Access} (h : Carried b s) : Carried b (driveAccess a s) :=
  ite (fun _ => h.onMem) fun _ => h.onBpt rfl id id

theorem countUpstream (h : Carried b s) : Carried b (countUpstream s) := by
  refine h.onBpt rfl (fun _ => ?_) id
  show (if _ then 0 else min 32 _) ≤ 32
  split
  · exact Nat.zero_le 32
  · exact Nat.min_le_left ..

theorem grantUpstream {a : Access} (h : Carried b s) : Carried b (grantUpstream a s) := by
  unfold Machine.grantUpstream
  split
  · exact h.grantPart.close.driveAccess.countUpstream
  · exact h.driveAccess.countUpstream

theorem forward {a : Access} (h : Carried b s) : Carried b (forward a s) :=
  ite (fun _ => h.grantUpstream) fun _ => h.holds nofun nofun

/-! ### The commands of the control page -/

theorem startSupervision (h : Carried b s) : Carried b (startSupervision s) := (h.enterTrain.onLink (by exact id)).startLiveness.onRc

theorem startAs {r : Role} (h : Carried b s) : Carried b (startAs r s) :=
  (ite (fun _ => h.onRc.setRole) fun _ => h.setRole.onRc.adoptEpoch).startSupervision

theorem stopLink (h : Carried b s) : Carried b (stopLink s) :=
  ite (fun _ => (h.onLink fun _ hx => absurd rfl hx).raise) fun _ => h.onLink fun _ hx => absurd rfl hx

theorem stopEffects (h : Carried b s) : Carried b (stopEffects s) := by
  unfold Machine.stopEffects
  exact h.stopLink.clearReplication.emptyApply.leaveHandoff.setRole.onRc.onDisp (by dsimp only; exact id)

theorem commandStop {c : Byte} (h : Carried b s) : Carried b (commandStop c s) :=
  (ite (fun _ => h) fun _ => h.stopEffects).completeWith

theorem runCommand {c : Command} {w1 w2 w3 : DWord} (h : Carried b s) : Carried b (runCommand c w1 w2 w3 s) := by
  cases c with
  | defineWindow =>
    simp only [Machine.runCommand, commandDefine]
    split
    · exact h.completeWith
    · exact h.onCsu (by exact id)
  | clearWindow =>
    refine ite (fun _ => h.completeWith) fun _ => ?_
    split
    · exact h.completeWith
    · exact h.onCsu (by exact id)
  | setTiming =>
    refine ite (fun _ => h.completeWith) fun _ => ?_
    split
    · exact h.completeWith
    · exact (h.onCsu (by exact id)).completeWith
  | start =>
    refine ite (fun _ => h.completeWith) fun _ => ?_
    split
    · exact h.completeWith
    · exact h.startAs.completeWith
  | stop => exact h.commandStop
  | switchover =>
    exact ite (fun _ => h.completeWith) fun _ => ite (fun _ => h.completeWith) fun _ => ite (fun _ => h.completeWith)
      fun _ => (h.setRole.onRc.onCsu (by exact id)).handoffSweep.judgeConverged
  | takeOver =>
    exact ite (fun _ => h.completeWith) fun _ => ite (fun _ => h.completeWith) fun _ => h.takeOverNow.completeWith
  | release => exact ite (fun _ => h.enterReleased.completeWith) fun _ => h.completeWith
  | resume =>
    exact ite (fun _ => h.completeWith) fun _ => h.setRole.onRc.adoptEpoch.startLiveness.judgeTakeover.completeWith
  | resync =>
    exact ite (fun _ => h.completeWith) fun _ => ite (fun _ => h.completeWith) fun _ => h.resyncNow.completeWith
  | queryRecord =>
    simp only [Machine.runCommand, commandQuery]
    (repeat' split) <;> exact h.completeWith

theorem commandTrigger {w0 w1 w2 w3 : DWord} (h : Carried b s) : Carried b (commandTrigger w0 w1 w2 w3 s) := by
  unfold Machine.commandTrigger
  split
  · unfold takeTrigger
    split
    · exact h.intakeResult.runCommand
    · exact h.intakeResult.completeWith
  · exact ite (fun _ => h.completeWith.intakeResult.commandStop) fun _ => h.raise

/-! ### The session bus -/

theorem countSuppressed (h : Carried b s) : Carried b (countSuppressed s) := h.onBpt rfl id id
theorem mergeShadow {i : Nat} {d : DWord} {e : Byte} (h : Carried b s) : Carried b (mergeShadow i d e s) := by
  unfold Machine.mergeShadow
  split
  · exact h.onBpt rfl id id
  · exact h
theorem livenessEvent (h : Carried b s) : Carried b (livenessEvent s) := ite (fun _ => h) fun _ => h.startLiveness

theorem controlEvent {i : Nat} (h : Carried b s) : Carried b (controlEvent i s) := by
  unfold Machine.controlEvent
  split
  · exact h.commandTrigger
  · exact h.livenessEvent
  · exact h.onCsu (by exact id)
  · exact h.onCsu (by exact id)
  · exact h

theorem recordWrite {k : Slot} {w : RecordWindow} {i p : Nat} {e : Byte} (h : Carried b s) :
    Carried b (recordWrite k w i p e s).2 := by
  unfold Machine.recordWrite
  split
  · exact h.countSuppressed
  · split
    · exact h.capture
    · exact h

theorem journalWrite {k : Slot} {f : Nat} {a : Access} (h : Carried b s) : Carried b (journalWrite k f a s).2 := by
  unfold Machine.journalWrite
  split
  · exact h.countSuppressed
  · split
    · split
      · rename_i hl
        exact h.appendEntry (of_decide_eq_true hl)
      · exact h
    · exact h

theorem decodeAccess {a : Access} (h : Carried b s) : Carried b (decodeAccess a s).2 := by
  unfold Machine.decodeAccess
  split
  · exact ite (fun _ => ite (fun _ => h.mergeShadow) fun _ => h.mergeShadow.controlEvent) fun _ => h
  · split
    · exact (h.onCsu (by exact id)).raise
    · exact h
  · split
    · exact h.recordWrite
    · split <;> exact h
  · split
    · exact h.journalWrite
    · split <;> exact h
  · exact h

theorem stallRoom (h : Carried b s) : Carried b (stallRoom s) := by
  unfold Machine.stallRoom
  split
  · split
    · refine ite (fun hr => close (forward (close (h.endHold.appendEntry ?_)))) fun _ => h
      exact stallHasRoom_room (s := s) hr
    · exact h
  · exact h

theorem stallExpiry (h : Carried b s) : Carried b (stallExpiry s) := by
  unfold Machine.stallExpiry
  split
  · refine ite (fun _ => h) fun _ => close (forward (close ?_))
    split
    · exact h.endHold.enterDesync
    · exact h.endHold
  · exact h

theorem resolveStall (h : Carried b s) : Carried b (resolveStall s) := by
  unfold Machine.resolveStall
  split
  · exact ite (fun _ => h.endHold.countSuppressed) fun _ => ite (fun _ => h) fun _ => h.endHold.forward
  · exact h

theorem finish {u : State} (h : Carried b s) : Carried b (finish u s) := h.close.resolveStall.close

theorem takeEvent {f : State → State} (h : Carried b s) (hf : ∀ {u}, Carried b u → Carried b (f u)) :
    Carried b (takeEvent f s) := (hf h.stallRoom).finish

theorem releaseRead (h : Carried b s) : Carried b (releaseRead s) := by
  unfold Machine.releaseRead
  split
  · exact ite (fun _ => h) fun _ => h.endHold.forward
  · exact ite (fun _ => h.endHold.forward) fun _ => h
  · exact h

/-! ### The receiver -/

theorem receiveHello {x : HelloFrame} (h : Carried b s) : Carried b (receiveHello x s) :=
  ite (fun _ => h.takeHello.judgeTakeover) fun _ => h.passFrame
theorem receiveHeartbeat {x : HeartbeatFrame} {y : Bool} (h : Carried b s) : Carried b (receiveHeartbeat x y s) :=
  ite (fun _ => h.countFrame.takeHeartbeat) fun _ => h.passFrame
theorem receiveAck {a : SeqNo} (h : Carried b s) : Carried b (receiveAck a s) :=
  ite (fun _ => ite (fun _ => h.countFrame.resolveApplied) fun _ => h.countFrame) fun _ => h.passFrame
theorem receiveNak {e : SeqNo} (h : Carried b s) : Carried b (receiveNak e s) :=
  ite (fun _ => ite (fun _ => h.countFrame.goBackFrom) fun _ => h.countFrame) fun _ => h.passFrame
theorem takeSequenced {f : SeqFrame} (h : Carried b s) : Carried b (takeSequenced f s) :=
  ite (fun _ => ite (fun _ => h.judgeSequenced.settleQueue) fun _ => h.judgeSequenced) fun _ => h
theorem receiveSequenced {f : SeqFrame} (h : Carried b s) : Carried b (receiveSequenced f s) :=
  ite (fun _ => ite (fun _ => h.countFrame.takeSequenced.judgeTakeover) fun _ => h.dropInvalid) fun _ => h.passFrame

theorem judgeFrame {l : List Byte} (h : Carried b s) : Carried b (judgeFrame l s) := by
  unfold Machine.judgeFrame
  split
  · exact h.dropInvalid
  · exact h.receiveHello
  · exact h.receiveHeartbeat
  · exact h.receiveAck
  · exact h.receiveNak
  · exact h.receiveSequenced

theorem readOn {l : List Byte} (h : Carried b s) : Carried b (readOn l s) :=
  ite (fun _ => (h.onLink (by exact id)).judgeFrame) fun _ => h.onLink (by exact id)

theorem takeByte {x : CableByte} (h : Carried b s) : Carried b (takeByte x s) := by
  refine ite (fun _ => ite (fun _ => h.endShort.readOn) fun _ => ?_) fun _ => h.receiveByte
  split
  · exact h.readOn
  · exact h.receiveByte

theorem takeAll (h : Carried b s) (l : List CableByte) : Carried b (takeAll l s) := by
  induction l generalizing s with
  | nil => exact h
  | cons x l ih => exact ih h.takeByte

theorem takeBytes {l : List Byte} {x : Bool} (h : Carried b s) : Carried b (takeBytes l x s) :=
  ite (fun _ => (h.takeAll _).endShort) fun _ => h.takeAll _

/-! ### The events of the rows -/

theorem helloTimeout (h : Carried b s) : Carried b (helloTimeout s) := ite (fun _ => h.toTrain) fun _ => h
theorem helloDue (h : Carried b s) : Carried b (helloDue s) := ite (fun _ => h.onLink (by exact id)) fun _ => h

theorem frameBoundary (h : Carried b s) : Carried b (frameBoundary s) := by
  refine ite (fun hl => ?_) fun _ => h
  obtain ⟨he, -⟩ := endFrame_spec s.link
  have hs : (endFrame s.link).state = s.link.state := by rw [he]
  exact transmitNext (h.onLink fun _ _ => hs ▸ hl.1) (hs ▸ hl.1)

theorem helloSent (h : Carried b s) : Carried b (helloSent s) :=
  ite (fun _ => (h.onLink fun _ hx => absurd rfl hx).tryUp.judgeTakeover) fun _ => h
theorem boundaryPassed (h : Carried b s) : Carried b (boundaryPassed s) := ite (fun _ => h.periodBoundary) fun _ => h
theorem ackExpired (h : Carried b s) : Carried b (ackExpired s) := ite (fun _ => (h.onDisp (by exact id)).retrain) fun _ => h
theorem closedRetrain (h : Carried b s) : Carried b (closedRetrain s) := ite (fun _ => h.retrain) fun _ => h

theorem startNext (h : Carried b s) : Carried b (startNext s) := by
  unfold Machine.startNext
  split
  · rename_i hc
    exact h.startItem (chooseItem_room hc)
  · exact h

theorem portSlot {c : PortClass} (h : Carried b s) : Carried b (portSlot c s) := ite (fun _ => h.grantPart) fun _ => h
theorem beginCopy {k : Slot} (h : Carried b s) : Carried b (beginCopy k s) :=
  ite (fun _ => h.setJournalState) fun _ => h

theorem insertNext (h : Carried b s) : Carried b (insertNext s) := by
  refine ite (fun hl => ?_) fun _ => h
  split
  · split
    · exact h.insertBlock (Nat.lt_trans hl (by decide))
    · exact h
  · exact h

theorem mergeSlot (h : Carried b s) : Carried b (mergeSlot s) := ite (fun _ => h.portSlot) fun _ => h
theorem writeSlot (h : Carried b s) : Carried b (writeSlot s) := ite (fun _ => h) fun _ => h.portSlot
theorem visitSync (h : Carried b s) : Carried b (visitSync s) := ite (fun _ => h.syncStep) fun _ => h
theorem finishSync (h : Carried b s) : Carried b (finishSync s) := ite (fun _ => h.completeSync) fun _ => h
theorem visitRefresh (h : Carried b s) : Carried b (visitRefresh s) := ite (fun _ => h.refreshStep) fun _ => h
theorem passEnd (h : Carried b s) : Carried b (passEnd s) := ite (fun _ => h.nextRefresh) fun _ => h
theorem levelSampled {x : Bool} (h : Carried b s) : Carried b (levelSampled x s) :=
  ite (fun _ => h) fun _ => h.onRc.judgeLost

theorem dualExpired (h : Carried b s) : Carried b (dualExpired s) := by
  unfold Machine.dualExpired
  split
  · exact h.onRc.dualClaimDetected.judgeTakeover
  · exact h

theorem handoffExpired (h : Carried b s) : Carried b (handoffExpired s) := ite (fun _ => h.handoffReturns) fun _ => h
theorem livenessExpired (h : Carried b s) : Carried b (livenessExpired s) :=
  ite (fun _ => ite (fun _ => h.onRc.raise.releaseIfHeld) fun _ => h.onRc.raise) fun _ => h
theorem clockLost (h : Carried b s) : Carried b (clockLost s) :=
  ite (fun _ => h.onRc.onRc.raise.releaseIfHeld) fun _ => h.onRc

theorem clockReturned (h : Carried b s) : Carried b (clockReturned s) := by
  unfold Machine.clockReturned
  split
  · exact h.onRc.endHold.forward
  · exact h.onRc

end Carried

end Sys2Proof.Machine
end

section
open Sys2Proof Sys2Proof.Machine
/-! What the role says of the other blocks, kept by every effect of the part. -/

namespace Sys2Proof.Machine

/-! ## What the effects of the roles leave -/

/-- The dual-claim timer stops exactly when one of the two claims is missing (R152). -/
@[simp] theorem dualAfter_stopped (both : Bool) (d : DualTimer) : dualAfter both d = .stopped ↔ both = false := by
  cases both <;> cases d <;> simp [dualAfter]

/-- An event on a record moves tags alone (R37). -/
theorem recordEvent_tags (e : TagEvent) (k : Slot) (i : Nat) (s : State) :
    ∃ x, recordEvent e k i s = { s with rts := { s.rts with tags := x } } := by
  unfold recordEvent
  split <;> exact ⟨_, rfl⟩

/-- The go-back of the records of a list moves tags alone, and none where the list is empty (R43). -/
theorem recordsGoneBack_spec (l : List InFlight) (s : State) :
    ∃ x, recordsGoneBack l s = { s with rts := { s.rts with tags := x } } ∧ (l = [] → x = s.rts.tags) := by
  induction l generalizing s with
  | nil => exact ⟨s.rts.tags, rfl, fun _ => rfl⟩
  | cons e l ih =>
    have h1 : ∀ u : State, (∃ x, u = { s with rts := { s.rts with tags := x } }) →
        ∃ x, recordsGoneBack l u = { s with rts := { s.rts with tags := x } } := by
      rintro u ⟨x, rfl⟩
      obtain ⟨y, hy, -⟩ := ih { s with rts := { s.rts with tags := x } }
      exact ⟨y, hy⟩
    have h2 : ∃ x, (match e.item with | .record k i => recordEvent .goBack k i s | _ => s) =
        { s with rts := { s.rts with tags := x } } := by
      split
      · exact recordEvent_tags ..
      · exact ⟨_, rfl⟩
    obtain ⟨x, hx⟩ := h1 _ h2
    exact ⟨x, hx, nofun⟩

/-- The emptying of R69: both lists, the arms, the readouts and the ack timer are gone, every journal window is DESYNC,
and nothing else changes but the tags of records in flight and the pending set. -/
theorem emptyGoingBack_spec (s : State) :
    ∃ x v p, emptyGoingBack s =
        { s with
          rts := { s.rts with tags := x }
          journals := { queue := [], states := v }
          disp :=
            { s.disp with
              readouts := Vector.replicate 4 none, inFlight := [], syncBeginArm := false, syncDoneArm := false,
              handoverArm := false, ackTimer := none
              seqClosed := s.disp.seqClosed || (!s.disp.inFlight.isEmpty && decide (s.link.state = .up)) }
          csu := { s.csu with pendingSet := p } } ∧
      (s.disp.inFlight = [] → x = s.rts.tags) ∧
      ∀ k : Slot, v[k] = (s.journals.states[k]).map fun _ => .desync := by
  obtain ⟨x, hx, h1⟩ := recordsGoneBack_spec s.disp.inFlight s
  obtain ⟨v, p, h, h2⟩ := emptyJournals_spec (clearDispatcher (recordsGoneBack s.disp.inFlight s))
  refine ⟨x, v, p, ?_, h1, ?_⟩
  · unfold emptyGoingBack
    rw [h, hx]
    rfl
  · rw [hx] at h2
    exact h2

/-- The departure of the sequence stream with the passes stopped (R69, R128, R131). -/
theorem streamEnded_spec (s : State) :
    ∃ x v p, stopRefresh (abortSync (emptyGoingBack s)) =
        { s with
          rts := { s.rts with tags := x, outstanding := 0 }
          journals := { queue := [], states := v }
          disp :=
            { s.disp with
              readouts := Vector.replicate 4 none, inFlight := [], syncBeginArm := false, syncDoneArm := false,
              handoverArm := false, ackTimer := none
              seqClosed := s.disp.seqClosed || (!s.disp.inFlight.isEmpty && decide (s.link.state = .up)) }
          pass :=
            { s.pass with
              phase := .none, syncPos := 0, syncClock := 0, awaited := .none, refreshing := false, refreshPos := 0,
              refreshClock := 0 }
          csu := { s.csu with pendingSet := p } } ∧
      (s.disp.inFlight = [] → x = s.rts.tags) ∧
      ∀ k : Slot, v[k] = (s.journals.states[k]).map fun _ => .desync := by
  obtain ⟨x, v, p, h, h1, h2⟩ := emptyGoingBack_spec s
  refine ⟨x, v, p, ?_, h1, h2⟩
  rw [h]
  rfl

/-! ## The law -/

/-- What the role says of the other blocks and of the link; where `ended`, a running SWITCHOVER besides that belongs to
HANDOFF. It does not while a handoff is being ended. -/
structure Ruled (ended : Prop) (s : State) : Prop where
  claim    : ClaimLaw s
  closing  : s.rc.closing = true → s.rc.role = .handoff
  handoff  : s.rc.role = .handoff → s.csu.running = some .switchover
  ended    : ended → s.csu.running = some .switchover → s.rc.role = .handoff
  table    : tableCommandRuns s.csu = true → s.rc.role = .init
  off      : s.link.state = .off ↔ s.rc.role = .init
  sync     : s.pass.phase ≠ .none → claims s.rc.role = true
  refresh  : s.pass.refreshing = true → claims s.rc.role = true
  tags     : claims s.rc.role = false → s.rts.tags = []
  inFlight : s.disp.inFlight ≠ [] → claims s.rc.role = true ∧ s.link.state = .up
  apply    : s.apply.queue ≠ [] → applies s.rc.role = true
  clock    : s.rc.busClock = .lost → s.rc.bclkQuiet ≠ none
  link     : LinkLaw s

theorem ruled_iff (s : State) : Ruled True s ↔ RoleLaw s ∧ LinkLaw s :=
  ⟨fun h => ⟨⟨h.claim, h.closing, ⟨h.handoff, h.ended trivial⟩, h.table, h.off, h.sync, h.refresh, h.tags, h.inFlight,
      h.apply, h.clock⟩, h.link⟩,
    fun ⟨h, hl⟩ => ⟨h.claim, h.closing, h.handoff.1, fun _ => h.handoff.2, h.table, h.off, h.sync, h.refresh, h.tags,
      h.inFlight, h.apply, h.clock, hl⟩⟩

/-- A claiming part holds no entry to apply (R104). -/
theorem applies_of_claims {r : Role} (h : claims r = true) : applies r = false := by cases r <;> first | rfl | cases h

namespace Ruled

variable {p : Prop} {s t : State}

theorem weaken (h : Ruled p s) : Ruled False s := { h with ended := nofun }

theorem ite {c : Prop} [Decidable c] (h : c → Ruled p s) (h' : ¬ c → Ruled p t) : Ruled p (if c then s else t) := by
  split
  · exact h ‹_›
  · exact h' ‹_›

/-! ### What follows from the law -/

theorem queue_empty (h : Ruled p s) (hr : applies s.rc.role = false) : s.apply.queue = [] := by
  by_contra hq
  rw [h.apply hq] at hr
  cases hr

theorem inFlight_empty (h : Ruled p s) (hc : claims s.rc.role = false ∨ s.link.state ≠ .up) :
    s.disp.inFlight = [] := by
  by_contra hq
  obtain ⟨h1, h2⟩ := h.inFlight hq
  rcases hc with hc | hc
  · rw [h1] at hc; cases hc
  · exact hc h2

theorem not_closing (h : Ruled p s) (hr : s.rc.role ≠ .handoff) : s.rc.closing = false := by
  by_contra hc
  exact hr (h.closing (by simpa using hc))

theorem not_init (h : Ruled p s) (hl : s.link.state ≠ .off) : s.rc.role ≠ .init := fun hr => hl (h.off.2 hr)

/-! ### The blocks -/

theorem onRts {f : Rts → Rts} (h : Ruled p s) (ht : claims s.rc.role = true ∨ (s.rts.tags = [] → (f s.rts).tags = [])) :
    Ruled p (s.onRts f) :=
  { h with
    tags := fun hc => by
      rcases ht with ht | ht
      · exact absurd (ht.symm.trans hc) nofun
      · exact ht (h.tags hc) }

theorem onPass {f : PassEngine → PassEngine} (h : Ruled p s)
    (hp : claims s.rc.role = true ∨ ((f s.pass).phase ≠ .none → s.pass.phase ≠ .none) ∧
      ((f s.pass).refreshing = true → s.pass.refreshing = true)) : Ruled p (s.onPass f) :=
  { h with
    sync := fun hx => hp.elim id fun hp => h.sync (hp.1 hx)
    refresh := fun hx => hp.elim id fun hp => h.refresh (hp.2 hx) }

theorem onDisp {f : Dispatcher → Dispatcher} (h : Ruled p s)
    (hd : claims s.rc.role = true ∧ s.link.state = .up ∨ (s.disp.inFlight = [] → (f s.disp).inFlight = [])) :
    Ruled p (s.onDisp f) :=
  { h with inFlight := fun hx => hd.elim id fun hd => h.inFlight fun he => hx (hd he) }

theorem onJournals {f : Journals → Journals} (h : Ruled p s) : Ruled p (s.onJournals f) := { h with }
theorem onMem {f : Memory → Memory} (h : Ruled p s) : Ruled p (s.onMem f) := { h with }
theorem onBpt {f : Bpt → Bpt} (h : Ruled p s) : Ruled p (s.onBpt f) := { h with }
theorem draw (h : Ruled p s) : Ruled p s.draw := { h with }

theorem onApply {f : ApplyEngine → ApplyEngine} (h : Ruled p s)
    (ha : applies s.rc.role = true ∨ (s.apply.queue = [] → (f s.apply).queue = [])) : Ruled p (s.onApply f) :=
  { h with apply := fun hx => ha.elim id fun ha => h.apply fun he => hx (ha he) }

theorem onCsu {f : Csu → Csu} (h : Ruled p s) (hr : (f s.csu).running = s.csu.running) : Ruled p (s.onCsu f) :=
  { h with
    handoff := fun hx => hr.trans (h.handoff hx)
    ended := fun hp hx => h.ended hp (hr.symm.trans hx)
    table := fun hx => h.table (by simpa only [tableCommandRuns, State.onCsu, hr] using hx) }

/-- A change of the link that leaves its state and the peer view. -/
theorem onLink {f : Link → Link} (h : Ruled p s) (hs : (f s.link).state = s.link.state)
    (hv : (f s.link).view = s.link.view) : Ruled p (s.onLink f) :=
  { h with
    off := by simpa only [State.onLink, hs] using h.off
    inFlight := by simpa only [State.onLink, hs] using h.inFlight
    link := by simpa only [LinkLaw, State.onLink, hs, hv] using h.link }

/-- A move of the link outside OFF. -/
theorem linkMoves {f : Link → Link} (h : Ruled p s) (h0 : s.link.state ≠ .off) (h1 : (f s.link).state ≠ .off)
    (hup : s.disp.inFlight = [] ∨ (f s.link).state = .up)
    (hv : (f s.link).view = .paired ↔ (f s.link).state = .up) : Ruled p (s.onLink f) :=
  { h with
    off := ⟨fun hx => absurd hx h1, fun hx => absurd hx (h.not_init h0)⟩
    inFlight := fun hx => ⟨(h.inFlight hx).1, hup.resolve_left hx⟩
    link := hv }

/-- A change of the Role Controller that leaves the role, the claims, the sub-state and the bus clock. -/
theorem onRc {f : RoleController → RoleController} (h : Ruled p s)
    (hr : (f s.rc).role = s.rc.role ∧ (f s.rc).claimOut = s.rc.claimOut ∧ (f s.rc).claimIn = s.rc.claimIn ∧
      (f s.rc).dual = s.rc.dual ∧ (f s.rc).busClock = s.rc.busClock ∧ (f s.rc).bclkQuiet = s.rc.bclkQuiet)
    (hc : (f s.rc).closing = true → s.rc.role = .handoff) : Ruled p (s.onRc f) := by
  obtain ⟨h1, h2, h3, h4, h5, h6⟩ := hr
  constructor
  · simpa only [ClaimLaw, State.onRc, h1, h2, h3, h4] using h.claim
  · simpa only [State.onRc, h1] using hc
  · simpa only [State.onRc, h1] using h.handoff
  · simpa only [State.onRc, h1] using h.ended
  · simpa only [State.onRc, h1] using h.table
  · simpa only [State.onRc, h1] using h.off
  · simpa only [State.onRc, h1] using h.sync
  · simpa only [State.onRc, h1] using h.refresh
  · simpa only [State.onRc, h1] using h.tags
  · simpa only [State.onRc, h1] using h.inFlight
  · simpa only [State.onRc, h1] using h.apply
  · simpa only [State.onRc, h5, h6] using h.clock
  · exact h.link

/-! ### Reports -/

theorem raise {n : Notice} (h : Ruled p s) : Ruled p (raise n s) := h.onCsu rfl
theorem driveInt (h : Ruled p s) : Ruled p (driveInt s) := h.onCsu rfl
theorem reportDiscard {m : DiscardMarker} {k : Slot} {i : Nat} (h : Ruled p s) : Ruled p (reportDiscard m k i s) :=
  (h.onCsu rfl).raise
theorem post {w : Nat} {v : DWord} (h : Ruled p s) : Ruled p (post w v s) := h.onCsu rfl

theorem postChanged {u : State} (h : Ruled p s) (ws : List Nat) : Ruled p (postChanged u ws s) := by
  induction ws generalizing s with
  | nil => exact h
  | cons w ws ih => exact ih (ite (fun _ => h) fun _ => h.post)

theorem postCounts (h : Ruled p s) (ws : List Nat) : Ruled p (postCounts ws s) := by
  induction ws generalizing s with
  | nil => exact h
  | cons w ws ih => exact ih (ite (fun _ => h) fun _ => h.post.onCsu rfl)

theorem formResult {r : ResultWord} (h : Ruled p s) : Ruled p (formResult r s) :=
  h.onCsu (by split <;> rfl)
theorem intakeResult {c : Byte} (h : Ruled p s) : Ruled p (intakeResult c s) := h.formResult

/-- The Control and Status Unit idle, outside HANDOFF. -/
theorem idle {f : Csu → Csu} (h : Ruled p s) (hr : s.rc.role ≠ .handoff) (hf : (f s.csu).running = none) :
    Ruled True (s.onCsu f) :=
  { h with
    handoff := fun hx => absurd hx hr
    ended := fun _ hx => absurd (hf.symm.trans hx) nofun
    table := fun hx => by simp [tableCommandRuns, State.onCsu, hf] at hx }

theorem completeWith {c : Byte} {r : ResultCode} {n : Nat} (h : Ruled p s) (hr : s.rc.role ≠ .handoff) :
    Ruled True (completeWith c r n s) := h.formResult.raise.idle hr rfl

/-- A SWITCHOVER that still runs ends, and nothing changes where none does (R148 to R151). -/
theorem endSwitchover {r : ResultCode} (h : Ruled p s) (hr : s.rc.role ≠ .handoff) :
    Ruled True (endSwitchover r s) := by
  by_cases hs : s.csu.running = some .switchover
  · rw [(endSwitchover_spec r s).1 hs]
    exact h.completeWith hr
  · rw [(endSwitchover_spec r s).2 hs]
    exact { h with ended := fun _ hx => absurd hx hs }

/-! ### Tags, journals and the Dispatcher -/

theorem tagEvent {e : TagEvent} {i : Nat} (h : Ruled p s) (hc : claims s.rc.role = true) :
    Ruled p (tagEvent e i s) := h.onRts (.inl hc)

theorem recordEvent {e : TagEvent} {k : Slot} {i : Nat} (h : Ruled p s) (hc : claims s.rc.role = true) :
    Ruled p (recordEvent e k i s) := by
  unfold Machine.recordEvent
  split
  · exact h.tagEvent hc
  · exact h

theorem recordAcked {k : Slot} {i : Nat} (h : Ruled p s) (hc : claims s.rc.role = true) :
    Ruled p (recordAcked k i s) := by
  unfold Machine.recordAcked
  split
  · exact ite (fun _ => (h.tagEvent hc).onRts (.inl hc)) fun _ => h.tagEvent hc
  · exact h

theorem setJournalState {k : Slot} {x : Option JournalState} (h : Ruled p s) : Ruled p (setJournalState k x s) :=
  h.onJournals
theorem enterDesync {k : Slot} (h : Ruled p s) : Ruled p (enterDesync k s) :=
  ite (fun _ => h.setJournalState.raise) fun _ => h
theorem appendEntry {e : JournalEntry} (h : Ruled p s) : Ruled p (appendEntry e s) := h.onJournals
theorem dropFront (h : Ruled p s) : Ruled p (dropFront s) := h.onJournals
theorem copyAcked {k : Slot} (h : Ruled p s) : Ruled p (copyAcked k s) := ite (fun _ => h.setJournalState) fun _ => h
theorem remarkSent (h : Ruled p s) : Ruled p (remarkSent s) := h.onJournals

theorem handoffSweep (h : Ruled p s) : Ruled p (handoffSweep s) := h.onRts (.inr fun he => by simp [he])

theorem joinInFlight {i : Item} {r : Option (Fin 4)} (h : Ruled p s)
    (hc : claims s.rc.role = true ∧ s.link.state = .up) : Ruled p (joinInFlight i r s) :=
  (h.onDisp (.inl hc)).onLink rfl rfl

theorem startItem {c : Choice} (h : Ruled p s) (hc : claims s.rc.role = true ∧ s.link.state = .up) :
    Ruled p (startItem c s) := by
  unfold Machine.startItem
  split
  · exact ((h.onDisp (.inl hc)).onPass (.inl hc.1)).joinInFlight hc
  · split
    · exact (h.joinInFlight hc).remarkSent
    · split
      · exact ((h.onDisp (.inl hc)).joinInFlight hc).remarkSent
      · exact h
  · split
    · exact ((((h.tagEvent hc.1).onRts (.inl hc.1)).onDisp (.inl hc)).onDisp (.inl hc)).joinInFlight hc
    · exact h

theorem countCorrected {c : ReadClass} (h : Ruled p s) : Ruled p (countCorrected c s) :=
  ite (fun _ => h.onDisp (.inr id)) fun _ => h

theorem takeWord {e : InFlight} {r : Fin 4} {ro : Readout} {c : ReadClass} {d : DWord} (h : Ruled p s) :
    Ruled p (takeWord e r ro c d s) := by
  unfold Machine.takeWord
  split
  · split
    · exact h
    · refine ite (fun _ => (h.onDisp (.inr ?_)).reportDiscard) fun _ => h.onDisp (.inr ?_) <;>
        exact fun he => by simp [setReadout, onEntry, he]
  · exact ite (fun _ => (h.onDisp (.inr id)).reportDiscard) fun _ => h.onDisp (.inr id)

theorem readoutWord (h : Ruled p s) : Ruled p (readoutWord s) := by
  unfold Machine.readoutWord
  split
  · exact h
  · split
    · split
      · exact h
      · exact h.countCorrected.takeWord
    · exact h

theorem restartReadout {k : Slot} {i : Nat} (h : Ruled p s) (hc : claims s.rc.role = true) :
    Ruled p (restartReadout k i s) := by
  unfold Machine.restartReadout
  split
  · exact h
  · split
    · exact ite (fun _ => (h.onDisp (.inr id)).recordEvent hc) fun _ => h
    · exact h

theorem capture {k : Slot} {w : RecordWindow} {i j : Nat} (h : Ruled p s) (hc : claims s.rc.role = true) :
    Ruled p (capture k w i j s) :=
  ite (fun _ => h.tagEvent hc) fun _ => (h.tagEvent hc).restartReadout hc

theorem restartAckTimer (h : Ruled p s) : Ruled p (restartAckTimer s) := h.onDisp (.inr id)

/-- The go-back of an entry leaves the role and the link. -/
theorem entryGoneBack {e : InFlight} (h : Ruled p s) (hc : claims s.rc.role = true ∧ s.link.state = .up) :
    Ruled p (entryGoneBack e s) ∧ (claims (Machine.entryGoneBack e s).rc.role = true ∧
      (Machine.entryGoneBack e s).link.state = .up) := by
  unfold Machine.entryGoneBack
  split
  · refine ⟨(h.onDisp (.inl hc)).recordEvent hc.1, ?_⟩
    obtain ⟨x, hx⟩ := recordEvent_tags .goBack _ _ (s.onDisp (abandonReadout e))
    rw [hx]
    exact hc
  · exact ⟨h.onDisp (.inl hc), hc⟩
  · exact ⟨((h.onDisp (.inl hc)).onDisp (.inl hc)).onPass (.inl hc.1), hc⟩

theorem entriesGoneBack (h : Ruled p s) (l : List InFlight) (hc : claims s.rc.role = true ∧ s.link.state = .up) :
    Ruled p (entriesGoneBack l s) := by
  induction l generalizing s with
  | nil => exact h
  | cons e l ih => exact ih (h.entryGoneBack hc).1 (h.entryGoneBack hc).2

theorem cutSending {l : List InFlight} (h : Ruled p s) : Ruled p (cutSending l s) := by
  unfold Machine.cutSending
  split
  · exact ite (fun _ => h.draw.onLink rfl rfl) fun _ => h
  · exact h

theorem goBackFrom {e : SeqNo} (h : Ruled p s) : Ruled p (goBackFrom e s) := by
  refine ite (fun hn => ?_) fun _ => h
  have hc : claims s.rc.role = true ∧ s.link.state = .up := by
    refine h.inFlight fun he => ?_
    simp [transmittedCount, he] at hn
  exact (((h.onDisp (.inl hc)).entriesGoneBack _ hc).remarkSent.cutSending.onLink rfl rfl).restartAckTimer

end Ruled

end Sys2Proof.Machine
end

section
open Sys2Proof Sys2Proof.Machine
/-! The changes of role, and what brings them, keep what the role says of the other blocks. -/

namespace Sys2Proof.Machine

/-- Nothing of the replication runs: no pass, no tag but a clean one, and nothing in flight. -/
structure Quiet (s : State) : Prop where
  phase      : s.pass.phase = .none
  refreshing : s.pass.refreshing = false
  tags       : s.rts.tags = []
  inFlight   : s.disp.inFlight = []

theorem clearReplication_quiet (s : State) : Quiet (clearReplication s) := by
  obtain ⟨v, p, h, -⟩ := clearReplication_spec s
  rw [h]
  exact ⟨rfl, rfl, rfl, rfl⟩

namespace Ruled

variable {p : Prop} {s t : State}

theorem quiet (h : Ruled p s) (hc : claims s.rc.role = false) : Quiet s where
  phase := by
    by_contra hx
    exact absurd ((h.sync hx).symm.trans hc) nofun
  refreshing := by
    by_contra hx
    exact absurd ((h.refresh (by simpa using hx)).symm.trans hc) nofun
  tags := h.tags hc
  inFlight := h.inFlight_empty (.inl hc)

/-- The control part of the law, from a state whose lists are quiet. -/
theorem ofQuiet (hq : Quiet s) (ha : s.apply.queue = []) (hc : ClaimLaw s)
    (hcl : s.rc.closing = false) (hr : s.rc.role ≠ .handoff) (hs : p → s.csu.running ≠ some .switchover)
    (ht : tableCommandRuns s.csu = true → s.rc.role = .init) (ho : s.link.state = .off ↔ s.rc.role = .init)
    (hk : s.rc.busClock = .lost → s.rc.bclkQuiet ≠ none) (hl : LinkLaw s) : Ruled p s where
  claim := hc
  closing := fun h => absurd (hcl.symm.trans h) nofun
  handoff := fun h => absurd h hr
  ended := fun hp h => absurd h (hs hp)
  table := ht
  off := ho
  sync := fun h => absurd hq.phase h
  refresh := fun h => absurd (hq.refreshing.symm.trans h) nofun
  tags := fun _ => hq.tags
  inFlight := fun h => absurd hq.inFlight h
  apply := fun h => absurd ha h
  clock := hk
  link := hl

/-! ### Emptyings -/

theorem clearReplication (h : Ruled p s) : Ruled p (clearReplication s) := by
  obtain ⟨v, q, e, -⟩ := clearReplication_spec s
  rw [e]
  exact { h with
    sync := nofun, refresh := nofun, tags := fun _ => rfl, inFlight := fun hx => absurd rfl hx }

theorem settleSeen (h : Ruled p s) : Ruled p (settleSeen s) := ite (fun _ => h.onLink rfl rfl) fun _ => h

theorem freeRead {b : State} (h : Ruled p s) : Ruled p (freeRead b s) := by
  obtain ⟨x, e, -⟩ := freeRead_spec b s
  rw [e]
  exact { h with }

theorem emptyApply (h : Ruled p s) : Ruled p (emptyApply s) := ((h.onApply (.inr fun _ => rfl)).freeRead).settleSeen

theorem abortSync (h : Ruled p s) : Ruled p (abortSync s) :=
  (h.onPass (.inr ⟨fun hx => absurd rfl hx, id⟩)).onRts (.inr id)
theorem stopRefresh (h : Ruled p s) : Ruled p (stopRefresh s) := h.onPass (.inr ⟨id, nofun⟩)

/-- The end of the sequence stream with the passes stopped (R69, R128, R131). -/
theorem streamEnded (h : Ruled p s) : Ruled p (Machine.stopRefresh (Machine.abortSync (emptyGoingBack s))) := by
  obtain ⟨x, v, q, e, hx, -⟩ := streamEnded_spec s
  rw [e]
  exact { h with
    sync := nofun, refresh := nofun
    tags := fun hc => (hx (h.inFlight_empty (.inl hc))).trans (h.tags hc)
    inFlight := fun hx => absurd rfl hx }

/-! ### Passes -/

theorem beginRefresh (h : Ruled p s) (hc : claims s.rc.role = true) : Ruled p (beginRefresh s) := h.onPass (.inl hc)
theorem restartSync (h : Ruled p s) (hc : claims s.rc.role = true) : Ruled p (restartSync s) :=
  ((h.onRts (.inl hc)).onJournals).onPass (.inl hc)
theorem armSyncBegin (h : Ruled p s) : Ruled p (armSyncBegin s) := h.onDisp (.inr id)
theorem startSync (h : Ruled p s) (hc : claims s.rc.role = true) : Ruled p (startSync s) := (h.restartSync hc).armSyncBegin

theorem resyncNow (h : Ruled p s) (hc : claims s.rc.role = true) : Ruled p (resyncNow s) := by
  unfold Machine.resyncNow
  split
  · exact h.startSync hc
  · split
    · exact h.restartSync hc
    · exact h.armSyncBegin.restartSync hc
  · split
    · exact (h.onDisp (.inr id)).restartSync hc
    · exact (h.armSyncBegin.onDisp (.inr id)).restartSync hc

theorem completeSync (h : Ruled p s) (hc : claims s.rc.role = true) : Ruled p (completeSync s) :=
  (h.onPass (.inl hc)).onDisp (.inr id)

theorem syncDoneAcked {q : SeqNo} (h : Ruled p s) : Ruled p (syncDoneAcked q s) :=
  ite (fun _ => ((h.onPass (.inr ⟨fun hx => absurd rfl hx, id⟩)).onRts (.inr id)).raise) fun _ => h

theorem syncStep (h : Ruled p s) (hc : claims s.rc.role = true) : Ruled p (syncStep s) := by
  unfold Machine.syncStep
  exact (h.tagEvent hc).onPass (.inl hc)

theorem refreshStep (h : Ruled p s) (hc : claims s.rc.role = true) : Ruled p (refreshStep s) := by
  unfold Machine.refreshStep
  refine onPass ?_ (.inr ⟨id, id⟩)
  split
  · exact h.recordEvent hc
  · exact h

theorem nextRefresh (h : Ruled p s) : Ruled p (nextRefresh s) := h.onPass (.inr ⟨id, id⟩)

theorem decideIfPaired (h : Ruled p s) : Ruled p (decideIfPaired s) := by
  refine ite (fun hd => ?_) fun _ => h
  have hc : claims s.rc.role = true := by
    simp only [decisionHolds, Bool.and_eq_true] at hd
    exact hd.2
  unfold pairingDecision
  split
  · exact h.beginRefresh hc
  · exact (h.startSync hc).beginRefresh hc

/-! ### Changes of role -/

/-- The claims follow the role (R134, R152). -/
theorem claimLaw_setRole (r : Role) (s : State) : ClaimLaw (setRole r s) := ⟨rfl, dualAfter_stopped ..⟩

/-- A change of role to one that claims, and to TAKEOVER, from a role other than INIT (R138). -/
theorem setRole {r : Role} (h : Ruled p s) (h0 : s.rc.role ≠ .init) (hcl : s.rc.closing = false)
    (hr : r = .active ∧ s.apply.queue = [] ∨ r = .takeover ∧ claims s.rc.role = false ∨
      r = .standby ∧ claims s.rc.role = false) :
    Ruled (p ∧ s.rc.role ≠ .handoff) (setRole r s) := by
  have hn : r ≠ .init ∧ r ≠ .handoff := by rcases hr with ⟨rfl, -⟩ | ⟨rfl, -⟩ | ⟨rfl, -⟩ <;> exact ⟨nofun, nofun⟩
  constructor
  case claim => exact claimLaw_setRole r s
  case closing => exact fun hx => absurd (hcl.symm.trans hx) nofun
  case handoff => exact fun hx => absurd hx hn.2
  case ended => exact fun ⟨hp, hs⟩ hx => absurd (h.ended hp hx) hs
  case table => exact fun hx => absurd (h.table hx) h0
  case off => exact ⟨fun hx => absurd (h.off.1 hx) h0, fun hx => absurd hx hn.1⟩
  case clock => exact h.clock
  case link => exact h.link
  all_goals
    rcases hr with ⟨rfl, hq⟩ | ⟨rfl, hc⟩ | ⟨rfl, hc⟩
  case sync.inl => exact fun _ => rfl
  case refresh.inl => exact fun _ => rfl
  case tags.inl => exact nofun
  case inFlight.inl => exact fun hx => ⟨rfl, (h.inFlight hx).2⟩
  case apply.inl => exact fun hx => absurd hq hx
  case sync.inr.inl | sync.inr.inr => exact fun hx => absurd (h.quiet hc).phase hx
  case refresh.inr.inl | refresh.inr.inr => exact fun hx => absurd ((h.quiet hc).refreshing.symm.trans hx) nofun
  case tags.inr.inl | tags.inr.inr => exact fun _ => (h.quiet hc).tags
  case inFlight.inr.inl | inFlight.inr.inr => exact fun hx => absurd (h.quiet hc).inFlight hx
  case apply.inr.inl | apply.inr.inr => exact fun _ => rfl

/-- An E that follows the peer record's (R137). -/
theorem adoptEpoch (h : Ruled p s) : Ruled p (adoptEpoch s) := h.onRc ⟨rfl, rfl, rfl, rfl, rfl, rfl⟩ h.closing

theorem withSync (x : SyncState) (h : Ruled p s) : Ruled p (s.onRc fun c => { c with sync := x }) :=
  h.onRc ⟨rfl, rfl, rfl, rfl, rfl, rfl⟩ h.closing

theorem withEpoch (f : Epoch → Epoch) (h : Ruled p s) : Ruled p (s.onRc fun c => { c with epoch := f c.epoch }) :=
  h.onRc ⟨rfl, rfl, rfl, rfl, rfl, rfl⟩ h.closing

theorem withSync_role (x : SyncState) (s : State) : (s.onRc fun c => { c with sync := x }).rc.role = s.rc.role := rfl

theorem leaveHandoff (h : Ruled p s) : Ruled p (leaveHandoff s) := h.onRc ⟨rfl, rfl, rfl, rfl, rfl, rfl⟩ nofun

theorem promote (h : Ruled p s) (hr : s.rc.role = .takeover) (hq : s.apply.queue = []) : Ruled p (promote s) := by
  have h0 : s.rc.role ≠ .init := by simp [hr]
  have hh : s.rc.role ≠ .handoff := by simp [hr]
  have h1 : Ruled p (s.onRc fun c => { c with epoch := maxEpoch c.epoch s.link.peer.epoch + 1 }) :=
    h.onRc ⟨rfl, rfl, rfl, rfl, rfl, rfl⟩ h.closing
  have h2 := h1.setRole (r := .active) h0 (h.not_closing hh) (.inl ⟨rfl, hq⟩)
  exact { h2 with ended := fun hp => h2.ended ⟨hp, hh⟩ }.clearReplication.decideIfPaired

theorem promoteIfDrained (h : Ruled p s) : Ruled p (promoteIfDrained s) :=
  ite (fun hc => h.promote hc.1 hc.2) fun _ => h

theorem toTakeover (h : Ruled p s) (hr : s.rc.role = .standby) : Ruled p (Machine.setRole .takeover s) := by
  have hh : s.rc.role ≠ .handoff := by simp [hr]
  have h1 := h.setRole (r := .takeover) (by simp [hr]) (h.not_closing hh) (.inr (.inl ⟨rfl, by simp [hr, claims]⟩))
  exact { h1 with ended := fun hp => h1.ended ⟨hp, hh⟩ }

theorem takeOverNow (h : Ruled p s) (hr : s.rc.role = .standby) : Ruled p (takeOverNow s) :=
  (h.toTakeover hr).promoteIfDrained

theorem judgeLost (h : Ruled p s) : Ruled p (judgeLost s) := by
  refine ite (fun hc => h.takeOverNow ?_) fun _ => h
  simp only [peerSilent, Bool.and_eq_true, decide_eq_true_eq] at hc
  exact hc.1.1.1

theorem judgeNoActive {b : State} (h : Ruled p s) : Ruled p (judgeNoActive b s) := by
  refine ite (fun hc => ite (fun _ => h.takeOverNow ?_) fun _ => h.raise) fun _ => h
  simp only [noActiveJudged, noActive, Bool.and_eq_true, decide_eq_true_eq] at hc
  exact hc.1.1.1.1.1

theorem judgeTakeover {b : State} (h : Ruled p s) : Ruled p (judgeTakeover b s) := h.judgeLost.judgeNoActive

/-- The fall from a role other than INIT to one that claims nothing: the replication is cleared, and the entries to apply
are dropped (R138). -/
theorem retire {r : Role} (h : Ruled p s) (h0 : s.rc.role ≠ .init) (hr : r = .standby ∨ r = .released) :
    Ruled False (Machine.emptyApply (Machine.clearReplication (Machine.setRole r (Machine.leaveHandoff s)))) := by
  have hn : r ≠ .handoff ∧ r ≠ .init := by rcases hr with rfl | rfl <;> exact ⟨nofun, nofun⟩
  obtain ⟨v, q, e, -⟩ := clearReplication_spec (Machine.setRole r (Machine.leaveHandoff s))
  obtain ⟨x, b, e', -⟩ :=
    emptyApply_spec (Machine.clearReplication (Machine.setRole r (Machine.leaveHandoff s)))
  rw [e', e]
  exact ofQuiet ⟨rfl, rfl, rfl, rfl⟩ rfl (claimLaw_setRole r (Machine.leaveHandoff s)) rfl hn.1 nofun
    (fun hx => absurd (h.table hx) h0) ⟨fun hx => absurd (h.off.1 hx) h0, fun hx => absurd hx hn.2⟩ h.clock h.link

theorem demote {x : SyncState} (h : Ruled p s) (h0 : s.rc.role ≠ .init) : Ruled False (demote x s) :=
  (h.retire h0 (.inl rfl)).withSync x

theorem demote_role (x : SyncState) (s : State) : (Machine.demote x s).rc.role ≠ .handoff := by
  rw [(demote_spec x s).1]
  exact nofun

theorem handoffSucceeds (h : Ruled p s) (h0 : s.rc.role ≠ .init) : Ruled True (handoffSucceeds s) :=
  ((h.withEpoch fun e => if s.link.peer.role = .active then s.link.peer.epoch
    else maxEpoch e s.link.peer.epoch + 1).demote h0).endSwitchover (demote_role _ _)

/-- The return to ACTIVE from HANDOFF (R149, R150). -/
theorem handoffReturns {r : ResultCode} (h : Ruled p s) (hr : s.rc.role = .handoff) : Ruled True (handoffReturns r s) := by
  have hq : s.apply.queue = [] := h.queue_empty (by simp [hr, applies])
  exact (h.leaveHandoff.setRole (r := .active) (fun h0 => absurd (hr.symm.trans h0) nofun) rfl
    (.inl ⟨rfl, hq⟩)).endSwitchover nofun

theorem judgeConverged (h : Ruled p s) : Ruled p (judgeConverged s) :=
  ite (fun hc => (h.onRc ⟨rfl, rfl, rfl, rfl, rfl, rfl⟩ fun _ => hc.1).onDisp (.inr id)) fun _ => h

theorem adoptEpoch_role (s : State) : (Machine.adoptEpoch s).rc.role = s.rc.role := rfl

theorem demoteDual (h : Ruled p s) (h0 : s.rc.role ≠ .init) : Ruled True (demoteDual s) :=
  (h.demote h0).adoptEpoch.endSwitchover (by rw [adoptEpoch_role]; exact demote_role _ _)

theorem dualClaimDetected (h : Ruled True s) (h0 : s.rc.role ≠ .init) : Ruled True (dualClaimDetected s) :=
  ite (fun _ => h.raise.demoteDual h0) fun _ => h.raise

/-- The role that a fall leaves. -/
theorem retire_role (r : Role) (s : State) :
    (Machine.emptyApply (Machine.clearReplication (Machine.setRole r (Machine.leaveHandoff s)))).rc.role = r := by
  obtain ⟨v, q, e, -⟩ := clearReplication_spec (Machine.setRole r (Machine.leaveHandoff s))
  obtain ⟨x, b, e', -⟩ := emptyApply_spec (Machine.clearReplication (Machine.setRole r (Machine.leaveHandoff s)))
  rw [e', e]
  rfl

theorem enterReleased (h : Ruled p s) (h0 : s.rc.role ≠ .init) : Ruled True (enterReleased s) :=
  ((h.retire h0 (.inr rfl)).withSync .unsynced).endSwitchover (by
    rw [withSync_role, retire_role]
    exact nofun)

theorem releaseIfHeld (h : Ruled True s) : Ruled True (releaseIfHeld s) := by
  refine ite (fun hr => h.enterReleased fun h0 => ?_) fun _ => h
  rw [h0] at hr
  cases hr

theorem startLiveness (h : Ruled p s) : Ruled p (startLiveness s) :=
  h.onRc ⟨rfl, rfl, rfl, rfl, rfl, rfl⟩ h.closing

/-! ### The peer record -/

theorem peerRoleChanged {old : Role} (h : Ruled True s) : Ruled True (peerRoleChanged old s) := by
  refine ite (fun hc => h.handoffSucceeds (by simp [hc.1])) fun _ => ite (fun _ => ?_) fun _ =>
    ite (fun _ => h.decideIfPaired) fun _ => ite (fun hc => h.handoffReturns hc.1) fun _ => h
  refine ite (fun hc => h.streamEnded.handoffReturns ?_) fun _ => h.streamEnded
  obtain ⟨x, v, q, e, -⟩ := streamEnded_spec s
  rw [e]
  exact hc.1

theorem updatePeer {r : PeerRecord} (h : Ruled True s) : Ruled True (updatePeer r s) := by
  have h1 : Ruled True (s.onLink fun l => { l with peer := r }) := h.onLink rfl rfl
  have h2 := ite (c := s.rc.role = .standby) (fun _ => h1.adoptEpoch) fun _ => h1
  exact ite (fun _ => h2.peerRoleChanged) fun _ => h2

end Ruled

end Sys2Proof.Machine
end

section
open Sys2Proof Sys2Proof.Machine
/-! The link, the entries applied, the memory port, the commands and the events keep what the role says of the other
blocks. -/

namespace Sys2Proof.Machine

/-! ## The link through a fall -/

theorem endSwitchover_link (r : ResultCode) (s : State) : (endSwitchover r s).link = s.link := by
  by_cases hr : s.csu.running = some .switchover
  · rw [(endSwitchover_spec r s).1 hr]; rfl
  · rw [(endSwitchover_spec r s).2 hr]

theorem onRc_link (f : RoleController → RoleController) (s : State) : (s.onRc f).link = s.link := rfl

/-- The emptying of the apply queue leaves the link outside HELLO (R83). -/
theorem emptyApply_link {s : State} (h : s.link.state ≠ .hello) : (emptyApply s).link = s.link := by
  obtain ⟨x, hx, -⟩ := freeRead_spec s (s.onApply fun a => { a with queue := [], written := 0, merged := none })
  unfold emptyApply settleSeen
  rw [hx]
  rw [if_neg (by exact fun hh => h hh.1)]
  rfl

/-- Demotion leaves the link outside HELLO (R138). -/
theorem demote_link (x : SyncState) {s : State} (h : s.link.state ≠ .hello) : (demote x s).link = s.link := by
  obtain ⟨v, p, e, -⟩ := clearReplication_spec (setRole .standby (leaveHandoff s))
  have hl : (clearReplication (setRole .standby (leaveHandoff s))).link = s.link := by rw [e]; rfl
  unfold demote
  rw [onRc_link, emptyApply_link (by rw [hl]; exact h), hl]

/-- The departure from UP in the closing sub-state (R86, R150). -/
theorem leaveUp_closing (v : PeerView) {s : State} (hr : s.rc.role = .handoff) (hc : s.rc.closing = true) :
    leaveUp v s = endSwitchover .linkLost (demote .unsynced (dropLink v s)) := if_pos ⟨hr, hc⟩

/-- The departure from UP in HANDOFF before closing (R86, R150). -/
theorem leaveUp_returns (v : PeerView) {s : State} (hr : s.rc.role = .handoff) (hc : s.rc.closing = false) :
    leaveUp v s = handoffReturns .linkLost (stopRefresh (abortSync (emptyGoingBack (dropLink v s)))) := by
  simp [leaveUp, hr, hc]

/-- The departure from UP in any other role (R86). -/
theorem leaveUp_stands (v : PeerView) {s : State} (hr : s.rc.role ≠ .handoff) :
    leaveUp v s = stopRefresh (abortSync (emptyGoingBack (dropLink v s))) := by
  simp [leaveUp, hr]

/-- The departure from UP leaves of the link what its own part leaves (R86). -/
theorem leaveUp_link (v : PeerView) (s : State) : (leaveUp v s).link = (dropLink v s).link := by
  obtain ⟨x, w, q, e, -⟩ := streamEnded_spec (dropLink v s)
  by_cases hr : s.rc.role = .handoff
  · by_cases hc : s.rc.closing = true
    · rw [leaveUp_closing v hr hc, endSwitchover_link, demote_link _ (show LinkState.train ≠ .hello from nofun)]
    · rw [leaveUp_returns v hr (by simpa using hc), e]
      unfold handoffReturns
      rw [endSwitchover_link]
      rfl
  · rw [leaveUp_stands v hr, e]

/-! ## The role through a completion -/

section
variable (s : State)

@[simp] theorem settleSeen_rc : (settleSeen s).rc = s.rc := by unfold settleSeen; split <;> rfl
@[simp] theorem queueAck_rc : (queueAck s).rc = s.rc := by unfold queueAck; split <;> rfl
@[simp] theorem freeRead_rc (b : State) : (freeRead b s).rc = s.rc := by
  obtain ⟨x, h, -⟩ := freeRead_spec b s
  rw [h]
@[simp] theorem completeWord_rc (k : Slot) (o : Nat) (m : Option (DWord × ReadClass)) :
    (completeWord k o m s).rc = s.rc := by
  unfold completeWord
  split <;> rfl

/-- A completed entry leaves a part that applies: a HANDOVER moves STANDBY to TAKEOVER alone (R104, R113). -/
theorem completionEffects_applies (b : SeqBody) (m : Option (DWord × ReadClass)) :
    applies (completionEffects b m s).rc.role = applies s.rc.role := by
  cases b with
  | handover e =>
    simp only [completionEffects, handoverApplied]
    split
    · rename_i h
      rw [h]
      rfl
    · rfl
  | journalWord => simp [completionEffects]
  | journalBlock => simp only [completionEffects]; split <;> rfl
  | _ => rfl

theorem completeHead_applies (f : SeqFrame) (rest : List SeqFrame) :
    applies (completeHead f rest s).rc.role = applies s.rc.role := by
  simp [completeHead, completionEffects_applies]

end

namespace Ruled

variable {p : Prop} {s t : State}

/-! ### The link -/

/-- The link below UP, with no entry in flight: the peer view is not PAIRED there. -/
theorem linkFalls {f : Link → Link} (h : Ruled p s) (h0 : s.link.state ≠ .off) (hs : (f s.link).state ≠ .off)
    (hi : s.disp.inFlight = []) (hu : (f s.link).state ≠ .up) (hv : (f s.link).view ≠ .paired) :
    Ruled p (s.onLink f) :=
  h.linkMoves h0 hs (.inl hi) ⟨fun hx => absurd hx hv, fun hx => absurd hx hu⟩

theorem view_unpaired (h : Ruled p s) (hs : s.link.state ≠ .up) : s.link.view ≠ .paired := fun hv => hs (h.link.1 hv)

/-- The demotion that ends a closing sub-state whose link has left UP (R150). -/
theorem dropLink_demote {v : PeerView} (h : Ruled p s) (hu : s.link.state = .up) (hv : v ≠ .paired) :
    Ruled False (Machine.demote .unsynced (Machine.dropLink v s)) := by
  have h0 : s.rc.role ≠ .init := h.not_init (by simp [hu])
  obtain ⟨w, q, e, -⟩ := clearReplication_spec (Machine.setRole .standby (Machine.leaveHandoff (Machine.dropLink v s)))
  obtain ⟨x, b, e', -⟩ := emptyApply_spec
    (Machine.clearReplication (Machine.setRole .standby (Machine.leaveHandoff (Machine.dropLink v s))))
  refine Ruled.withSync .unsynced ?_
  rw [e', e]
  exact ofQuiet ⟨rfl, rfl, rfl, rfl⟩ rfl (claimLaw_setRole .standby (Machine.leaveHandoff (Machine.dropLink v s))) rfl
    nofun nofun (fun hx => absurd (h.table hx) h0) ⟨nofun, fun hx => nomatch hx⟩ h.clock ⟨fun hx => absurd hx hv, nofun⟩

/-- The departure from UP: the lists that UP alone permits are emptied (R69, R86, R128, R131, R150). -/
theorem leaveUp {v : PeerView} (h : Ruled True s) (hu : s.link.state = .up) (hv : v ≠ .paired) :
    Ruled True (leaveUp v s) := by
  have h0 : s.rc.role ≠ .init := h.not_init (by simp [hu])
  obtain ⟨x, w, q, e, hx, -⟩ := streamEnded_spec (Machine.dropLink v s)
  have h1 : Ruled True (Machine.stopRefresh (Machine.abortSync (emptyGoingBack (Machine.dropLink v s)))) := by
    rw [e]
    exact { h with
      off := ⟨nofun, fun hx => absurd hx h0⟩
      sync := nofun, refresh := nofun
      tags := fun hc => (hx (h.inFlight_empty (.inl hc))).trans (h.tags hc)
      inFlight := fun hx => absurd rfl hx
      link := ⟨fun hx => absurd hx hv, nofun⟩ }
  by_cases hr : s.rc.role = .handoff
  · by_cases hc : s.rc.closing = true
    · rw [leaveUp_closing v hr hc]
      exact (h.dropLink_demote hu hv).endSwitchover (demote_role _ _)
    · rw [leaveUp_returns v hr (by simpa using hc)]
      refine h1.handoffReturns ?_
      rw [e]
      exact hr
  · rw [leaveUp_stands v hr]
    exact h1

/-- The entry to TRAIN from a state that checks no entry in flight (R80). -/
theorem enterTrain (h : Ruled p s) (h0 : s.link.state ≠ .off) (hu : s.link.state ≠ .up) : Ruled p (enterTrain s) :=
  h.linkFalls h0 nofun (h.inFlight_empty (.inr hu)) nofun (h.view_unpaired hu)

theorem toTrain {v : PeerView} (h : Ruled True s) (h0 : s.link.state ≠ .off) (hv : v ≠ .paired) :
    Ruled True (toTrain v s) := by
  refine ite (fun hu => (h.leaveUp hu hv).enterTrain ?_ ?_) fun hu => h.enterTrain h0 hu <;>
    · rw [leaveUp_link]
      exact nofun

theorem loseAlignment (h : Ruled True s) : Ruled True (loseAlignment s) := by
  unfold Machine.loseAlignment
  split
  · exact h
  · exact h.onLink rfl rfl
  · exact h.toTrain (by assumption) nofun

theorem retrain (h : Ruled True s) : Ruled True (retrain s) :=
  ite (fun hu => h.toTrain (by simp [hu]) nofun) fun _ => h

/-- The entry to HELLO from TRAIN (R83). -/
theorem enterHello (h : Ruled p s) (h0 : s.link.state ≠ .off) (hu : s.link.state ≠ .up) : Ruled p (enterHello s) :=
  h.linkFalls h0 nofun (h.inFlight_empty (.inr hu)) nofun (h.view_unpaired hu)

theorem goUp (h : Ruled True s) (h0 : s.link.state ≠ .off) : Ruled True (goUp s) :=
  have h1 : Ruled True ((Machine.raise .linkUp s).onLink fun l =>
      { l with
        state := .up, nextSeq := 0, expected := 0, nakPending := false, ackWaiting := false,
        nakWaiting := false, view := .paired, helloWaiting := false }) :=
    h.raise.linkMoves h0 nofun (.inr rfl) ⟨fun _ => rfl, fun _ => rfl⟩
  ((h1.onApply (.inr id)).onDisp (.inr id)).decideIfPaired

theorem tryUp (h : Ruled True s) : Ruled True (tryUp s) := ite (fun hs => h.goUp (by simp [hs.1])) fun _ => h

/-- The move to INCOMPATIBLE from HELLO (R84). -/
theorem goIncompatible (h : Ruled p s) (hs : s.link.state = .hello) : Ruled p (goIncompatible s) :=
  (h.linkFalls (f := fun l => { l with state := .incompatible, helloWaiting := false, sending := none })
    (by simp [hs]) nofun (h.inFlight_empty (.inr (by simp [hs]))) nofun (h.view_unpaired (by simp [hs]))).raise

theorem judgeHelloClaim {x : HelloFrame} (h : Ruled True s) : Ruled True (judgeHelloClaim x s) := by
  refine ite (fun hc => h.dualClaimDetected fun h0 => ?_) fun _ => h
  simp [h0, claims] at hc

theorem helloInHello {x : HelloFrame} (h : Ruled True s) (hs : s.link.state = .hello) : Ruled True (helloInHello x s) :=
  ite (fun _ => (h.updatePeer.onLink rfl rfl).judgeHelloClaim.settleSeen.tryUp) fun _ =>
    (h.goIncompatible hs).judgeHelloClaim

theorem helloInUp {x : HelloFrame} (h : Ruled True s) : Ruled True (helloInUp x s) := h.updatePeer.judgeHelloClaim

theorem countFrame (h : Ruled p s) : Ruled p (countFrame s) :=
  h.onLink (markPeriod_endShort_aside ..).1 (by unfold markPeriod; split <;> simp [endShort_eq])
theorem dropInvalid (h : Ruled p s) : Ruled p (dropInvalid s) :=
  h.onLink (by simp [endShort_eq]) (by simp [endShort_eq])
theorem endShort (h : Ruled p s) : Ruled p (s.onLink endShort) :=
  h.onLink (by simp [endShort_eq]) (by simp [endShort_eq])
theorem passFrame (h : Ruled p s) : Ruled p (passFrame s) := ite (fun _ => h.onLink rfl rfl) fun _ => h

theorem takeHello {x : HelloFrame} (h : Ruled True s) : Ruled True (takeHello x s) := by
  have hs : (Machine.countFrame s).link.state = s.link.state := (markPeriod_endShort_aside ..).1
  unfold Machine.takeHello
  split
  · rename_i ht
    exact (h.countFrame.enterHello (by simp [hs, ht]) (by simp [hs, ht])).helloInHello rfl
  · rename_i ht
    exact h.countFrame.helloInHello (hs.trans ht)
  · exact h.countFrame.helloInUp
  · exact h.countFrame

theorem meetGap (h : Ruled p s) : Ruled p (meetGap s) := ite (fun _ => h) fun _ => h.onLink rfl rfl

theorem judgeSequenced {f : SeqFrame} (h : Ruled p s) (hr : s.rc.role = .standby) : Ruled p (judgeSequenced f s) :=
  ite (fun _ => ite (fun _ => (h.onApply (.inl (by simp [hr, applies]))).onLink rfl rfl) fun _ =>
      (h.onLink rfl rfl).meetGap) fun _ =>
    ite (fun _ => h.onLink rfl rfl) fun _ => ite (fun _ => h.meetGap) fun _ => h

theorem receiveByte {k : ByteKind} (h : Ruled True s) : Ruled True (receiveByte k s) := by
  unfold Machine.receiveByte
  split
  · exact h
  · rename_i hs
    refine ite (fun _ => ?_) fun _ => ite (fun _ => h.onLink rfl rfl) fun _ => h.onLink rfl rfl
    split
    · exact h.enterHello (by simp [hs]) (by simp [hs])
    · exact ite (fun _ => h.loseAlignment) fun _ => h.onLink rfl rfl
    · exact h.onLink rfl rfl
  · split
    · exact h.loseAlignment
    · exact ite (fun _ => h.loseAlignment) fun _ => h.onLink rfl rfl
    · exact h.onLink rfl rfl

/-- An acknowledged entry, which a claiming part had in flight. -/
theorem entryAcked {e : InFlight} (h : Ruled True s) (hc : claims s.rc.role = true) : Ruled True (entryAcked e s) := by
  unfold Machine.entryAcked
  split
  · exact h.recordAcked hc
  · exact h.dropFront
  · exact ite (fun _ => h.dropFront.copyAcked) fun _ => h.dropFront
  · exact h
  · exact h.syncDoneAcked
  · exact ite (fun hr => h.handoffSucceeds (by simp [hr.1])) fun _ => h

theorem acknowledge (h : Ruled True s) (n : Nat) : Ruled True (acknowledge n s) := by
  induction n generalizing s with
  | zero => exact h
  | succ n ih =>
    unfold Machine.acknowledge
    split
    · exact h
    · rename_i e rest hi
      have hc := h.inFlight (by simp [hi])
      have h1 : Ruled True (s.onDisp fun d => abandonReadout e { d with inFlight := rest }) := h.onDisp (.inl hc)
      exact ih (h1.entryAcked hc.1)

theorem resolveApplied {a : SeqNo} (h : Ruled True s) : Ruled True (resolveApplied a s) :=
  ite (fun _ => (h.acknowledge _).restartAckTimer.judgeConverged) fun _ =>
    ite (fun _ => h) fun _ => ite (fun _ => h) fun _ => h.onLink rfl rfl

theorem enterHeartbeat {x : HeartbeatFrame} (h : Ruled True s) : Ruled True (enterHeartbeat x s) :=
  h.updatePeer.judgeTakeover
theorem takeHeartbeat {x : HeartbeatFrame} {y : Bool} (h : Ruled True s) : Ruled True (takeHeartbeat x y s) :=
  ite (fun _ => ite (fun _ => h.resolveApplied.enterHeartbeat) fun _ => h.enterHeartbeat.resolveApplied) fun _ => h

theorem losePeer (h : Ruled True s) : Ruled True (losePeer s) :=
  ite (fun hu => h.raise.toTrain (fun ho => absurd (hu.symm.trans ho) nofun) nofun) fun hu =>
    { h.raise with link := ⟨nofun, fun hx => absurd hx hu⟩ }

theorem periodBoundary (h : Ruled True s) : Ruled True (periodBoundary s) :=
  ite (fun _ => (h.onLink rfl rfl).losePeer.judgeLost) fun _ => h.onLink rfl rfl

theorem startFrame {f : Frame} (h : Ruled p s) : Ruled p (startFrame f s) := h.onLink rfl rfl

theorem transmitNext (h : Ruled p s) : Ruled p (transmitNext s) := by
  refine ite (fun _ => (h.onLink rfl rfl).startFrame) fun _ =>
    ite (fun _ => ((h.onLink rfl rfl).onApply (.inr id)).startFrame) fun _ =>
    ite (fun _ => (h.onLink rfl rfl).startFrame) fun _ => ite (fun _ => (h.onLink rfl rfl).startFrame) fun _ => ?_
  split
  · refine ite (fun _ => startFrame (h.onDisp (.inr fun he => ?_))) fun _ => h
    unfold markTransmitted
    split <;> simp [setReadout, onEntry, he]
  · exact h

/-! ### The entries applied -/

theorem handoverApplied {e : Epoch} (h : Ruled p s) : Ruled p (handoverApplied e s) :=
  ite (fun hr => (h.onLink rfl rfl).adoptEpoch.toTakeover hr) fun _ => h.onLink rfl rfl

theorem completeWord {k : Slot} {o : Nat} {m : Option (DWord × ReadClass)} (h : Ruled p s) :
    Ruled p (completeWord k o m s) := by
  unfold Machine.completeWord
  split
  · exact (h.onApply (.inr id)).reportDiscard
  · exact h.onApply (.inr id)

theorem completionEffects {x : SeqBody} {m : Option (DWord × ReadClass)} (h : Ruled p s) :
    Ruled p (completionEffects x m s) := by
  cases x with
  | record => exact h
  | tombstone => exact h
  | discard => exact h.reportDiscard
  | journalWord => exact h.completeWord
  | journalBlock => exact ite (fun _ => h.raise) fun _ => h
  | syncBegin => exact h.withSync .syncing
  | syncDone => exact ((h.onPass (.inr ⟨id, id⟩)).withSync .inSync).raise
  | handover => exact h.handoverApplied

/-- The head of the apply queue completed, on a part that applies (R104, R109). -/
theorem completeHead {f : SeqFrame} {rest : List SeqFrame} (h : Ruled p s) (ha : applies s.rc.role = true) :
    Ruled p (completeHead f rest s) :=
  have h1 : Ruled p (Machine.completionEffects f.body s.apply.merged (Machine.freeRead s (s.onApply fun a =>
      { a with queue := rest, written := 0, merged := none, applied := f.seq + 1 }))) :=
    (h.onApply (.inl ha)).freeRead.completionEffects
  (ite (fun _ => h1.onLink rfl rfl) fun _ => h1 : Ruled p (queueAck _)).settleSeen

/-- The entries that complete as they become the head (R104, R107). -/
theorem completeImmediate (h : Ruled p s) (l : List SeqFrame) (ha : applies s.rc.role = true) :
    Ruled p (completeImmediate l s) := by
  induction l generalizing s with
  | nil => exact h
  | cons f l ih => exact ite (fun _ => ih (h.completeHead ha) ((completeHead_applies s f l).trans ha)) fun _ => h

theorem settleQueue (h : Ruled p s) : Ruled p (settleQueue s) :=
  (ite (fun ha => h.completeImmediate _ ha) fun _ => h).promoteIfDrained

theorem applyWrite (h : Ruled True s) : Ruled True (applyWrite s) := by
  unfold Machine.applyWrite
  split
  · rename_i a d f rest hn _
    have ha : applies s.rc.role = true := by
      by_contra ha
      simp [nextWrite, ha] at hn
    have h1 : Ruled True ((s.onMem fun m => memWrite m a (codedWord d)).onApply fun x =>
        { x with written := x.written + 1 }) := h.onMem.onApply (.inr id)
    exact ite (fun _ => (h1.completeHead ha).settleQueue.judgeTakeover) fun _ => h1
  · exact h

theorem applyRead (h : Ruled p s) : Ruled p (applyRead s) := by
  unfold Machine.applyRead
  split
  · split
    · exact h.countCorrected.onApply (.inr (by dsimp only; exact id))
    · exact h
  · exact h

theorem applyGrant (h : Ruled True s) : Ruled True (applyGrant s) := ite (fun _ => h.applyRead) fun _ => h.applyWrite

/-! ### The memory port -/

theorem settleOffers (h : Ruled p s) : Ruled p (settleOffers s) := by
  unfold Machine.settleOffers
  exact h.onBpt

theorem close {u : State} (h : Ruled p s) : Ruled p (close u s) := (h.driveInt.postChanged stateWords).settleOffers

theorem postingWrite (h : Ruled p s) : Ruled p (postingWrite s) := by
  unfold Machine.postingWrite
  split
  · exact h
  · rename_i x rest _
    have h1 : Ruled p ((s.onMem fun m => memWrite m (BitVec.ofNat 19 (Config.statusBase + x.word))
        (codedWord x.value)).onCsu fun c => { c with postQueue := rest }) := h.onMem.onCsu rfl
    refine ite (fun _ => ?_) fun _ => h1
    split
    · exact h1.onCsu rfl
    · exact h1

theorem serve {c : PortClass} (h : Ruled True s) : Ruled True (serve c s) := by
  cases c with
  | apply => exact h.applyGrant
  | readout => exact h.readoutWord
  | status => exact h.postingWrite

theorem grantPart {c : PortClass} (h : Ruled True s) : Ruled True (grantPart c s) := h.onBpt.serve
theorem driveAccess {a : Access} (h : Ruled p s) : Ruled p (driveAccess a s) := ite (fun _ => h.onMem) fun _ => h.onBpt
theorem countUpstream (h : Ruled p s) : Ruled p (countUpstream s) := h.onBpt

theorem grantUpstream {a : Access} (h : Ruled True s) : Ruled True (grantUpstream a s) := by
  unfold Machine.grantUpstream
  split
  · exact h.grantPart.close.driveAccess.countUpstream
  · exact h.driveAccess.countUpstream

theorem forward {a : Access} (h : Ruled True s) : Ruled True (forward a s) :=
  ite (fun _ => h.grantUpstream) fun _ => h.onBpt

theorem endHold (h : Ruled p s) : Ruled p (endHold s) := h.onBpt

/-! ### The commands of the control page -/

/-- Supervision begun on a part that START has given its role: the link is in TRAIN (R139). -/
theorem startSupervision (hq : Quiet s) (ha : s.apply.queue = []) (hc : ClaimLaw s) (hcl : s.rc.closing = false)
    (hr : s.rc.role ≠ .init ∧ s.rc.role ≠ .handoff) (hi : s.csu.running = none) : Ruled True (startSupervision s) :=
  ofQuiet ⟨hq.phase, hq.refreshing, hq.tags, hq.inFlight⟩ ha hc hcl hr.2
    (fun _ hx => absurd (hi.symm.trans hx) nofun)
    (fun hx => by simp [tableCommandRuns, Machine.startSupervision, State.onRc, Machine.startLiveness, Machine.enterTrain, State.onLink, hi] at hx)
    ⟨nofun, fun hx => absurd hx hr.1⟩ nofun ⟨nofun, nofun⟩

/-- START moves the part out of INIT (R139). -/
theorem startAs {r : Role} (h : Ruled True s) (h0 : s.rc.role = .init) (hi : s.csu.running = none)
    (hr : r = .active ∨ r = .standby) : Ruled True (startAs r s) := by
  have hq : Quiet s := h.quiet (by simp [h0, claims])
  have ha : s.apply.queue = [] := h.queue_empty (by simp [h0, applies])
  have hcl : s.rc.closing = false := h.not_closing (by simp [h0])
  rcases hr with rfl | rfl
  · exact startSupervision (s := Machine.setRole .active (s.onRc fun c => { c with epoch := c.epoch + 1 }))
      ⟨hq.phase, hq.refreshing, hq.tags, hq.inFlight⟩ ha (claimLaw_setRole ..) hcl ⟨nofun, nofun⟩ hi
  · exact startSupervision
      (s := Machine.adoptEpoch ((Machine.setRole .standby s).onRc fun c => { c with sync := .unsynced }))
      ⟨hq.phase, hq.refreshing, hq.tags, hq.inFlight⟩ ha (claimLaw_setRole .standby s) hcl ⟨nofun, nofun⟩ hi

/-- STOP and the completion behind it leave nothing but what INIT allows, whatever stood before (R140). -/
theorem stopped (c : Byte) (n : Nat) (s : State) : Ruled True (Machine.completeWith c .ok n (stopEffects s)) := by
  obtain ⟨v, q, e, -⟩ := clearReplication_spec (stopLink s)
  obtain ⟨x, b, e', -⟩ := emptyApply_spec (Machine.clearReplication (stopLink s))
  have hl : (stopLink s).link.state = .off ∧ (stopLink s).link.view = .none := by
    unfold stopLink
    split <;> exact ⟨rfl, rfl⟩
  have hq : Quiet (Machine.emptyApply (Machine.clearReplication (stopLink s))) := by
    rw [e', e]
    exact ⟨rfl, rfl, rfl, rfl⟩
  have ha : (Machine.emptyApply (Machine.clearReplication (stopLink s))).apply.queue = [] := by rw [e']
  have hk : (Machine.emptyApply (Machine.clearReplication (stopLink s))).link.state = .off ∧
      (Machine.emptyApply (Machine.clearReplication (stopLink s))).link.view = .none := by
    rw [e', e]
    exact hl
  unfold stopEffects
  generalize Machine.emptyApply (Machine.clearReplication (stopLink s)) = u at hq ha hk
  exact ofQuiet ⟨hq.phase, hq.refreshing, hq.tags, hq.inFlight⟩ ha (claimLaw_setRole .init (Machine.leaveHandoff u)) rfl
    nofun nofun (fun _ => rfl) ⟨fun _ => rfl, fun _ => hk.1⟩ nofun
    ⟨fun hx => (nomatch hk.2.symm.trans hx), fun hx => (nomatch hk.1.symm.trans hx)⟩

end Ruled

end Sys2Proof.Machine
end

section
open Sys2Proof Sys2Proof.Machine
/-! The commands, the session bus and the events keep what the role says of the other blocks. -/

namespace Sys2Proof.Machine

/-! ## The role that an effect leaves -/

theorem startAs_role {r : Role} (h : r = .active ∨ r = .standby) (s : State) : (startAs r s).rc.role = r := by
  rcases h with rfl | rfl <;> rfl

@[simp] theorem restartSync_rc (s : State) : (restartSync s).rc = s.rc := by simp [restartSync, copyInStep, clearMarks]
@[simp] theorem armSyncBegin_rc (s : State) : (armSyncBegin s).rc = s.rc := by simp [armSyncBegin]
@[simp] theorem startSync_rc (s : State) : (startSync s).rc = s.rc := by simp [startSync]

@[simp] theorem pairingDecision_rc (s : State) : (pairingDecision s).rc = s.rc := by
  unfold pairingDecision
  split <;> simp [beginRefresh]

@[simp] theorem decideIfPaired_rc (s : State) : (decideIfPaired s).rc = s.rc := by
  unfold decideIfPaired
  split
  · exact pairingDecision_rc s
  · rfl

@[simp] theorem clearReplication_rc (s : State) : (clearReplication s).rc = s.rc := by
  obtain ⟨v, p, h, -⟩ := clearReplication_spec s
  rw [h]

theorem resyncNow_rc (s : State) : (resyncNow s).rc = s.rc := by
  unfold resyncNow
  split
  · simp
  · split <;> simp
  · split <;> simp

theorem setRole_role (r : Role) (s : State) : (setRole r s).rc.role = r := rfl

theorem promote_role (s : State) : (promote s).rc.role = .active := by
  unfold promote
  rw [decideIfPaired_rc, clearReplication_rc, setRole_role]

/-- The move to TAKEOVER does not leave HANDOFF (R144). -/
theorem takeOverNow_role (s : State) : (takeOverNow s).rc.role ≠ .handoff := by
  unfold takeOverNow promoteIfDrained
  split
  · rw [promote_role]
    exact nofun
  · exact nofun

theorem judgeLost_role (s : State) (h : s.rc.role ≠ .handoff) : (judgeLost s).rc.role ≠ .handoff := by
  unfold judgeLost
  split
  · exact takeOverNow_role s
  · exact h

theorem judgeTakeover_role (b : State) {s : State} (h : s.rc.role ≠ .handoff) :
    (judgeTakeover b s).rc.role ≠ .handoff := by
  unfold judgeTakeover judgeNoActive
  split
  · split
    · exact takeOverNow_role _
    · exact judgeLost_role s h
  · exact judgeLost_role s h

theorem endSwitchover_rc (r : ResultCode) (s : State) : (endSwitchover r s).rc = s.rc := by
  by_cases hr : s.csu.running = some .switchover
  · rw [(endSwitchover_spec r s).1 hr]; rfl
  · rw [(endSwitchover_spec r s).2 hr]

theorem enterReleased_role (s : State) : (enterReleased s).rc.role = .released := by
  unfold enterReleased
  rw [endSwitchover_rc, Ruled.withSync_role, Ruled.retire_role]

@[simp] theorem intakeResult_running (c : Byte) (s : State) : (intakeResult c s).csu.running = s.csu.running := by
  show (if _ then _ else _ : Csu).running = _
  split <;> rfl

theorem claims_of_captures {c : RoleController} (h : captures c = true) : claims c.role = true := by
  simp only [captures, claims, decide_eq_true_eq] at h ⊢
  exact h.imp id And.left

/-- An item is chosen only in a claiming role, in UP (R57). -/
theorem claims_of_chosen {s : State} {c : Choice} (h : chooseItem s = some c) :
    claims s.rc.role = true ∧ s.link.state = .up := by
  unfold chooseItem at h
  split at h
  · rename_i hs
    simp only [sendingCondition, mayCopy, Bool.and_eq_true, decide_eq_true_eq] at hs
    exact ⟨decide_eq_true hs.1.1.2, hs.1.1.1.1⟩
  · cases h

namespace Ruled

variable {p : Prop} {s t : State}

/-! ### The commands -/

theorem commandStop {c : Byte} (h : s.rc.role = .init → Ruled p s) : Ruled True (commandStop c s) := by
  unfold Machine.commandStop
  split
  · rename_i h0
    exact (h h0).completeWith (by simp [h0])
  · exact stopped ..

/-- A window command begun in INIT (R160). -/
theorem begins {r : Running} (h : Ruled True s) (h0 : s.rc.role = .init) (hr : r ≠ .switchover) :
    Ruled True (s.onCsu fun c => { c with running := some r }) :=
  { h with
    handoff := fun hx => nomatch h0.symm.trans hx
    ended := fun _ hx => absurd (Option.some.inj hx) hr
    table := fun _ => h0 }

theorem commandDefine {w1 w2 w3 : DWord} (h : Ruled True s) (hr : s.rc.role ≠ .handoff) :
    Ruled True (commandDefine w1 w2 w3 s) := by
  unfold Machine.commandDefine
  split
  · exact h.completeWith hr
  · rename_i hd
    refine h.begins ?_ nofun
    by_contra h0
    simp [checkDefine, h0] at hd

theorem commandClear {w1 : DWord} (h : Ruled True s) (hr : s.rc.role ≠ .handoff) : Ruled True (commandClear w1 s) := by
  refine ite (fun _ => h.completeWith hr) fun h0 => ?_
  split
  · exact h.completeWith hr
  · exact h.begins (by simpa using h0) nofun

theorem commandTiming {w1 w2 : DWord} (h : Ruled True s) (hr : s.rc.role ≠ .handoff) :
    Ruled True (commandTiming w1 w2 s) := by
  refine ite (fun _ => h.completeWith hr) fun _ => ?_
  split
  · exact h.completeWith hr
  · exact (h.onCsu rfl).completeWith hr

theorem commandStart {w1 : DWord} (h : Ruled True s) (hr : s.rc.role ≠ .handoff) (hi : s.csu.running = none) :
    Ruled True (commandStart w1 s) := by
  refine ite (fun _ => h.completeWith hr) fun h0 => ?_
  split
  · exact h.completeWith hr
  · rename_i r hs
    have ho : r = .active ∨ r = .standby := by
      unfold startRoleOf at hs
      split at hs
      · exact .inr (Option.some.inj hs).symm
      · split at hs
        · exact .inl (Option.some.inj hs).symm
        · cases hs
    refine (h.startAs (by simpa using h0) hi ho).completeWith ?_
    rw [startAs_role ho]
    rcases ho with rfl | rfl <;> exact nofun

/-- SWITCHOVER moves ACTIVE to HANDOFF with its command running (R146). -/
theorem commandSwitchover {w1 : DWord} (h : Ruled True s) (hr : s.rc.role ≠ .handoff) :
    Ruled True (commandSwitchover w1 s) := by
  refine ite (fun _ => h.completeWith hr) fun h0 => ite (fun _ => h.completeWith hr) fun _ =>
    ite (fun _ => h.completeWith hr) fun _ => judgeConverged (handoffSweep ?_)
  have ha : s.rc.role = .active := by simpa using h0
  exact {
    claim := claimLaw_setRole .handoff s
    closing := nofun
    handoff := fun _ => rfl
    ended := fun _ _ => rfl
    table := nofun
    off := ⟨fun hx => (nomatch ha.symm.trans (h.off.1 hx)), nofun⟩
    sync := fun _ => rfl
    refresh := fun _ => rfl
    tags := nofun
    inFlight := fun hx => ⟨rfl, (h.inFlight hx).2⟩
    apply := fun hx => absurd (h.queue_empty (by simp [ha, applies])) hx
    clock := h.clock
    link := h.link }

theorem commandTakeOver (h : Ruled True s) (hr : s.rc.role ≠ .handoff) : Ruled True (commandTakeOver s) :=
  ite (fun _ => h.completeWith hr) fun h0 => ite (fun _ => h.completeWith hr) fun _ =>
    (h.takeOverNow (by simpa using h0)).completeWith (takeOverNow_role s)

theorem commandRelease (h : Ruled True s) (hr : s.rc.role ≠ .handoff) : Ruled True (commandRelease s) := by
  refine ite (fun h0 => (h.enterReleased ?_).completeWith ?_) fun _ => h.completeWith hr
  · rcases h0 with h0 | h0 | h0 <;> simp [h0]
  · rw [enterReleased_role]
    exact nofun

/-- RESUME moves RELEASED to STANDBY, where the takeover conditions are judged (R155). -/
theorem commandResume (h : Ruled True s) (hr : s.rc.role ≠ .handoff) : Ruled True (commandResume s) := by
  refine ite (fun _ => h.completeWith hr) fun h0 => ?_
  have h0 : s.rc.role = .released := by simpa using h0
  have h1 := h.setRole (r := .standby) (by simp [h0]) (h.not_closing hr) (.inr (.inr ⟨rfl, by simp [h0, claims]⟩))
  have h2 : Ruled True (Machine.setRole .standby s) := { h1 with ended := fun _ => h1.ended ⟨trivial, hr⟩ }
  have h3 := ((h2.withSync .unsynced).adoptEpoch.startLiveness).judgeTakeover (b := s)
  exact h3.completeWith (judgeTakeover_role s nofun)

theorem commandResync (h : Ruled True s) (hr : s.rc.role ≠ .handoff) : Ruled True (commandResync s) := by
  refine ite (fun _ => h.completeWith hr) fun h0 => ite (fun _ => h.completeWith hr) fun _ => ?_
  have h0 : s.rc.role = .active := by simpa using h0
  refine (h.resyncNow (by simp [h0, claims])).completeWith ?_
  rw [resyncNow_rc]
  exact hr

theorem commandQuery {w1 : DWord} (h : Ruled True s) (hr : s.rc.role ≠ .handoff) : Ruled True (commandQuery w1 s) := by
  unfold Machine.commandQuery
  split
  · exact h.completeWith hr
  · split
    · exact h.completeWith hr
    · exact ite (fun _ => h.completeWith hr) fun _ => h.completeWith hr

/-- A command handed to the block that owns it, by an idle unit (R159). -/
theorem runCommand {c : Command} {w1 w2 w3 : DWord} (h : Ruled True s) (hi : s.csu.running = none) :
    Ruled True (runCommand c w1 w2 w3 s) := by
  have hr : s.rc.role ≠ .handoff := fun hx => nomatch hi.symm.trans (h.handoff hx)
  cases c with
  | defineWindow => exact h.commandDefine hr
  | clearWindow => exact h.commandClear hr
  | setTiming => exact h.commandTiming hr
  | start => exact h.commandStart hr hi
  | stop => exact commandStop fun _ => h
  | switchover => exact h.commandSwitchover hr
  | takeOver => exact h.commandTakeOver hr
  | release => exact h.commandRelease hr
  | resume => exact h.commandResume hr
  | resync => exact h.commandResync hr
  | queryRecord => exact h.commandQuery hr

theorem commandTrigger {w0 w1 w2 w3 : DWord} (h : Ruled True s) : Ruled True (commandTrigger w0 w1 w2 w3 s) := by
  unfold Machine.commandTrigger
  split
  · rename_i hi
    have hr : s.rc.role ≠ .handoff := fun hx => nomatch hi.symm.trans (h.handoff hx)
    unfold takeTrigger
    split
    · exact h.intakeResult.runCommand ((intakeResult_running ..).trans hi)
    · exact h.intakeResult.completeWith hr
  · refine ite (fun _ => commandStop (p := True) fun h0 => ?_) fun _ => h.raise
    have h0 : s.rc.role = .init := h0
    exact Ruled.intakeResult (p := True) (h.completeWith (by simp [h0]))

/-! ### The session bus -/

theorem countSuppressed (h : Ruled p s) : Ruled p (countSuppressed s) := h.onBpt
theorem mergeShadow {i : Nat} {d : DWord} {e : Byte} (h : Ruled p s) : Ruled p (mergeShadow i d e s) := by
  unfold Machine.mergeShadow
  split
  · exact h.onBpt
  · exact h

theorem controlEvent {i : Nat} (h : Ruled True s) : Ruled True (controlEvent i s) := by
  unfold Machine.controlEvent
  split
  · exact h.commandTrigger
  · exact ite (fun _ => h) fun _ => h.startLiveness
  · exact h.onCsu rfl
  · exact h.onCsu rfl
  · exact h

theorem recordWrite {k : Slot} {w : RecordWindow} {i j : Nat} {e : Byte} (h : Ruled p s) :
    Ruled p (recordWrite k w i j e s).2 := by
  unfold Machine.recordWrite
  split
  · exact h.countSuppressed
  · split
    · rename_i hc
      exact h.capture (claims_of_captures hc.1)
    · exact h

theorem journalWrite {k : Slot} {f : Nat} {a : Access} (h : Ruled p s) : Ruled p (journalWrite k f a s).2 := by
  unfold Machine.journalWrite
  split
  · exact h.countSuppressed
  · split
    · split
      · exact h.appendEntry
      · exact h
    · exact h

theorem decodeAccess {a : Access} (h : Ruled True s) : Ruled True (decodeAccess a s).2 := by
  unfold Machine.decodeAccess
  split
  · exact ite (fun _ => ite (fun _ => h.mergeShadow) fun _ => h.mergeShadow.controlEvent) fun _ => h
  · split
    · exact (h.onCsu rfl).raise
    · exact h
  · split
    · exact h.recordWrite
    · split <;> exact h
  · split
    · exact h.journalWrite
    · split <;> exact h
  · exact h

theorem takeAccess {a : Access} (h : Ruled True s) : Ruled True (takeAccess a s) := by
  simp only [Machine.takeAccess]
  split
  · exact h.decodeAccess.close.forward.close
  · exact h.decodeAccess.close
  · exact h.decodeAccess.close.onBpt

theorem present {a : Access} (h : Ruled True s) : Ruled True (present a s) :=
  ite (fun _ => h.onBpt.close) fun _ => h.takeAccess

theorem stallRoom (h : Ruled True s) : Ruled True (stallRoom s) := by
  unfold Machine.stallRoom
  split
  · split
    · exact ite (fun _ => h.endHold.appendEntry.close.forward.close) fun _ => h
    · exact h
  · exact h

theorem stallExpiry (h : Ruled True s) : Ruled True (stallExpiry s) := by
  unfold Machine.stallExpiry
  split
  · refine ite (fun _ => h) fun _ => close (forward (close ?_))
    split
    · exact h.endHold.enterDesync
    · exact h.endHold
  · exact h

theorem resolveStall (h : Ruled True s) : Ruled True (resolveStall s) := by
  unfold Machine.resolveStall
  split
  · exact ite (fun _ => h.endHold.countSuppressed) fun _ => ite (fun _ => h) fun _ => h.endHold.forward
  · exact h

theorem finish {u : State} (h : Ruled True s) : Ruled True (finish u s) := h.close.resolveStall.close

theorem takeEvent {f : State → State} (h : Ruled True s) (hf : ∀ {u}, Ruled True u → Ruled True (f u)) :
    Ruled True (takeEvent f s) := (hf h.stallRoom).finish

theorem releaseRead (h : Ruled True s) : Ruled True (releaseRead s) := by
  unfold Machine.releaseRead
  split
  · exact ite (fun _ => h) fun _ => h.endHold.forward
  · exact ite (fun _ => h.endHold.forward) fun _ => h
  · exact h

/-! ### The receiver -/

theorem receiveHello {x : HelloFrame} (h : Ruled True s) : Ruled True (receiveHello x s) :=
  ite (fun _ => h.takeHello.judgeTakeover) fun _ => h.passFrame
theorem receiveHeartbeat {x : HeartbeatFrame} {y : Bool} (h : Ruled True s) : Ruled True (receiveHeartbeat x y s) :=
  ite (fun _ => h.countFrame.takeHeartbeat) fun _ => h.passFrame
theorem receiveAck {a : SeqNo} (h : Ruled True s) : Ruled True (receiveAck a s) :=
  ite (fun _ => ite (fun _ => h.countFrame.resolveApplied) fun _ => h.countFrame) fun _ => h.passFrame
theorem receiveNak {e : SeqNo} (h : Ruled True s) : Ruled True (receiveNak e s) :=
  ite (fun _ => ite (fun _ => h.countFrame.goBackFrom) fun _ => h.countFrame) fun _ => h.passFrame

theorem takeSequenced {f : SeqFrame} (h : Ruled True s) : Ruled True (takeSequenced f s) :=
  ite (fun hs => ite (fun _ => (h.judgeSequenced hs.2).settleQueue) fun _ => h.judgeSequenced hs.2) fun _ => h

theorem receiveSequenced {f : SeqFrame} (h : Ruled True s) : Ruled True (receiveSequenced f s) :=
  ite (fun _ => ite (fun _ => h.countFrame.takeSequenced.judgeTakeover) fun _ => h.dropInvalid) fun _ => h.passFrame

theorem judgeFrame {l : List Byte} (h : Ruled True s) : Ruled True (judgeFrame l s) := by
  unfold Machine.judgeFrame
  split
  · exact h.dropInvalid
  · exact h.receiveHello
  · exact h.receiveHeartbeat
  · exact h.receiveAck
  · exact h.receiveNak
  · exact h.receiveSequenced

theorem readOn {l : List Byte} (h : Ruled True s) : Ruled True (readOn l s) :=
  ite (fun _ => (h.onLink rfl rfl).judgeFrame) fun _ => h.onLink rfl rfl

theorem takeByte {x : CableByte} (h : Ruled True s) : Ruled True (takeByte x s) := by
  refine ite (fun _ => ite (fun _ => h.endShort.readOn) fun _ => ?_) fun _ => h.receiveByte
  split
  · exact h.readOn
  · exact h.receiveByte

theorem takeAll (h : Ruled True s) (l : List CableByte) : Ruled True (takeAll l s) := by
  induction l generalizing s with
  | nil => exact h
  | cons x l ih => exact ih h.takeByte

theorem takeBytes {l : List Byte} {x : Bool} (h : Ruled True s) : Ruled True (takeBytes l x s) :=
  ite (fun _ => (h.takeAll _).endShort) fun _ => h.takeAll _

/-! ### The events -/

theorem completeProlonged (h : Ruled True s) : Ruled True (completeProlonged s) := by
  have hk (k : Slot) (w : Window) (c : Byte) (n : Nat) (h0 : s.rc.role = .init) :
      Ruled True (Machine.completeWith c .ok n (installWindow k w s)) := by
    have h1 : Ruled True (installWindow k w s) :=
      { h with tags := fun hc => List.filter_eq_nil_iff.2 (by simp [h.tags hc]) }
    exact h1.completeWith (by rw [show (installWindow k w s).rc = s.rc from rfl, h0]; exact nofun)
  unfold Machine.completeProlonged
  split
  · rename_i hr
    exact hk _ _ _ _ (h.table (by simp [tableCommandRuns, hr]))
  · rename_i hr
    exact hk _ _ _ _ (h.table (by simp [tableCommandRuns, hr]))
  · exact h

theorem helloTimeout (h : Ruled True s) : Ruled True (helloTimeout s) :=
  ite (fun hs => h.toTrain (by simp [hs]) nofun) fun _ => h
theorem helloDue (h : Ruled p s) : Ruled p (helloDue s) := ite (fun _ => h.onLink rfl rfl) fun _ => h

theorem frameBoundary (h : Ruled p s) : Ruled p (frameBoundary s) := by
  obtain ⟨he, -⟩ := endFrame_spec s.link
  exact ite (fun _ => transmitNext (h.onLink (by rw [he]) (by rw [he]))) fun _ => h

theorem helloSent (h : Ruled True s) : Ruled True (helloSent s) :=
  ite (fun _ => (h.onLink rfl rfl).tryUp.judgeTakeover) fun _ => h
theorem boundaryPassed (h : Ruled True s) : Ruled True (boundaryPassed s) := ite (fun _ => h.periodBoundary) fun _ => h
theorem ackExpired (h : Ruled True s) : Ruled True (ackExpired s) :=
  ite (fun _ => (h.onDisp (.inr id)).retrain) fun _ => h
theorem closedRetrain (h : Ruled True s) : Ruled True (closedRetrain s) := ite (fun _ => h.retrain) fun _ => h

theorem startNext (h : Ruled p s) : Ruled p (startNext s) := by
  unfold Machine.startNext
  split
  · rename_i hc
    exact h.startItem (claims_of_chosen hc)
  · exact h

theorem portSlot {c : PortClass} (h : Ruled True s) : Ruled True (portSlot c s) := ite (fun _ => h.grantPart) fun _ => h
theorem beginCopy {k : Slot} (h : Ruled p s) : Ruled p (beginCopy k s) := ite (fun _ => h.setJournalState) fun _ => h

theorem insertNext (h : Ruled p s) : Ruled p (insertNext s) := by
  refine ite (fun _ => ?_) fun _ => h
  split
  · split
    · exact h.appendEntry.setJournalState
    · exact h
  · exact h

theorem mergeSlot (h : Ruled True s) : Ruled True (mergeSlot s) := ite (fun _ => h.portSlot) fun _ => h
theorem writeSlot (h : Ruled True s) : Ruled True (writeSlot s) := ite (fun _ => h) fun _ => h.portSlot

theorem visitSync (h : Ruled p s) : Ruled p (visitSync s) := by
  refine ite (fun hv => h.syncStep (h.sync fun hx => ?_)) fun _ => h
  simp [syncVisitDue, syncStepsLeft, hx] at hv

theorem finishSync (h : Ruled p s) : Ruled p (finishSync s) := by
  refine ite (fun hv => h.completeSync (h.sync fun hx => ?_)) fun _ => h
  simp [syncComplete, hx] at hv

theorem visitRefresh (h : Ruled p s) : Ruled p (visitRefresh s) := by
  refine ite (fun hv => h.refreshStep (h.refresh ?_)) fun _ => h
  simp only [refreshStepsLeft, Bool.and_eq_true] at hv
  exact hv.1

theorem passEnd (h : Ruled p s) : Ruled p (passEnd s) := ite (fun _ => h.nextRefresh) fun _ => h

theorem levelSampled {x : Bool} (h : Ruled True s) : Ruled True (levelSampled x s) :=
  ite (fun _ => h) fun _ =>
    judgeLost ({ h with claim := ⟨h.claim.1, dualAfter_stopped ..⟩ } :
      Ruled True (s.onRc fun c => settleDual { c with claimIn := x }))

theorem dualExpired (h : Ruled True s) : Ruled True (dualExpired s) := by
  unfold Machine.dualExpired
  split
  · rename_i hd
    have hc : (claims s.rc.role && s.rc.claimIn) ≠ false := fun hx => nomatch hd.symm.trans (h.claim.2.2 hx)
    have h1 : Ruled True (s.onRc fun c => { c with dual := .expired }) :=
      { h with claim := ⟨h.claim.1, ⟨nofun, fun hx => absurd hx hc⟩⟩ }
    refine (h1.dualClaimDetected fun h0 => hc ?_).judgeTakeover
    rw [show s.rc.role = .init from h0]
    rfl
  · exact h

theorem handoffExpired (h : Ruled True s) : Ruled True (handoffExpired s) :=
  ite (fun hc => h.handoffReturns hc.1) fun _ => h

theorem livenessExpired (h : Ruled True s) : Ruled True (livenessExpired s) :=
  ite (fun _ => ite (fun _ => (h.onRc ⟨rfl, rfl, rfl, rfl, rfl, rfl⟩ h.closing).raise.releaseIfHeld) fun _ =>
    (h.onRc ⟨rfl, rfl, rfl, rfl, rfl, rfl⟩ h.closing).raise) fun _ => h

theorem clockLost (h : Ruled True s) : Ruled True (clockLost s) :=
  ite (fun _ => releaseIfHeld (raise ({ h with clock := fun _ => nofun } : Ruled True
      ((s.onRc fun c => { c with bclkQuiet := some (max 100 (c.bclkQuiet.getD 0)) }).onRc fun c =>
        { c with busClock := .lost })))) fun _ => { h with clock := fun _ => nofun }

/-- An edge leaves the clock other than LOST (R157). -/
theorem edgeSeen_ne_lost (b : BusClock) : edgeSeen b ≠ .lost := by cases b <;> decide

theorem clockReturned (h : Ruled True s) : Ruled True (clockReturned s) := by
  have h1 : Ruled True (s.onRc fun c => { c with busClock := edgeSeen c.busClock, bclkQuiet := none }) :=
    { h with clock := fun hx => absurd hx (edgeSeen_ne_lost _) }
  unfold Machine.clockReturned
  split
  · exact h1.endHold.forward
  · exact h1

end Ruled

/-- Power-on leaves what INIT allows (R133, R168). -/
theorem powerOn_ruled (u : UnitId) (c : Bool) (q : Option Nat) (m : Memory) (n : Nat) (l : List Instr) :
    Ruled True (powerOn u c q m n l) :=
  .ofQuiet ⟨rfl, rfl, rfl, rfl⟩ rfl ⟨rfl, ⟨fun _ => rfl, fun _ => rfl⟩⟩ rfl nofun nofun (fun _ => rfl)
    ⟨fun _ => rfl, fun _ => rfl⟩ nofun ⟨nofun, nofun⟩

end Sys2Proof.Machine
end

section
open Sys2Proof Sys2Proof.Machine
/-! What an effect that no stalled write has to be resolved after leaves of its capture: the windows, the queueing of
their writes, and the role. -/

namespace Sys2Proof.Machine

/-- A part that is not STANDBY takes nothing over (R141, R142). -/
theorem judgeTakeover_aside (b : State) {s : State} (h : s.rc.role ≠ .standby) : judgeTakeover b s = s := by
  simp [judgeTakeover, judgeLost, peerSilent, judgeNoActive, noActiveJudged, noActive, h]

theorem role_of_captures {c : RoleController} (h : captures c = true) : c.role ≠ .standby ∧ applies c.role = false := by
  have hc := claims_of_captures h
  exact ⟨fun hx => by simp [hx, claims] at hc, applies_of_claims hc⟩

/-- A write that `s` captures and queues is captured and queued by `t` too (R25). -/
structure Queues (s t : State) : Prop where
  windows  : t.windows = s.windows
  states   : ∀ k : Slot, queuesWrites s.journals.states[k] = true → queuesWrites t.journals.states[k] = true
  captures : captures s.rc = true → captures t.rc = true

namespace Queues

variable {b s t : State}

theorem refl (s : State) : Queues s s := ⟨rfl, fun _ => id, id⟩

theorem trans (h : Queues b s) (h' : Queues s t) : Queues b t :=
  ⟨h'.windows.trans h.windows, fun k hk => h'.states k (h.states k hk), h'.captures ∘ h.captures⟩

/-- What changes neither the windows nor the journal states nor the role. -/
theorem aside (hw : t.windows = s.windows) (hj : t.journals.states = s.journals.states) (hr : t.rc = s.rc) :
    Queues s t := ⟨hw, fun k => by rw [hj]; exact id, by rw [hr]; exact id⟩

theorem ite {c : Prop} [Decidable c] {u : State} (h : c → Queues s t) (h' : ¬ c → Queues s u) :
    Queues s (if c then t else u) := by
  split
  · exact h ‹_›
  · exact h' ‹_›

theorem onRts {f : Rts → Rts} (h : Queues b s) : Queues b (s.onRts f) := h.trans (aside rfl rfl rfl)
theorem onDisp {f : Dispatcher → Dispatcher} (h : Queues b s) : Queues b (s.onDisp f) := h.trans (aside rfl rfl rfl)
theorem onLink {f : Link → Link} (h : Queues b s) : Queues b (s.onLink f) := h.trans (aside rfl rfl rfl)
theorem onApply {f : ApplyEngine → ApplyEngine} (h : Queues b s) : Queues b (s.onApply f) := h.trans (aside rfl rfl rfl)
theorem onPass {f : PassEngine → PassEngine} (h : Queues b s) : Queues b (s.onPass f) := h.trans (aside rfl rfl rfl)
theorem onCsu {f : Csu → Csu} (h : Queues b s) : Queues b (s.onCsu f) := h.trans (aside rfl rfl rfl)
theorem onBpt {f : Bpt → Bpt} (h : Queues b s) : Queues b (s.onBpt f) := h.trans (aside rfl rfl rfl)
theorem onMem {f : Memory → Memory} (h : Queues b s) : Queues b (s.onMem f) := h.trans (aside rfl rfl rfl)
theorem draw (h : Queues b s) : Queues b s.draw := h.trans (aside rfl rfl rfl)

/-- A change of the Journal Queue that leaves the journal states. -/
theorem onJournals {f : Journals → Journals} (h : Queues b s) (hf : (f s.journals).states = s.journals.states) :
    Queues b (s.onJournals f) := h.trans (aside rfl hf rfl)

/-- A change of the Role Controller that leaves the role and the sub-state. -/
theorem onRc {f : RoleController → RoleController} (h : Queues b s)
    (hf : (f s.rc).role = s.rc.role ∧ (f s.rc).closing = s.rc.closing) : Queues b (s.onRc f) :=
  h.trans ⟨rfl, fun _ => id, by simp [Machine.captures, hf]⟩

theorem raise {n : Notice} (h : Queues b s) : Queues b (raise n s) := h.onCsu
theorem reportDiscard {m : DiscardMarker} {k : Slot} {i : Nat} (h : Queues b s) : Queues b (reportDiscard m k i s) :=
  h.onCsu.raise
theorem post {w : Nat} {v : DWord} (h : Queues b s) : Queues b (post w v s) := h.onCsu

theorem postChanged {u : State} (h : Queues b s) (ws : List Nat) : Queues b (postChanged u ws s) := by
  induction ws generalizing s with
  | nil => exact h
  | cons w ws ih => exact ih (h.trans (ite (fun _ => refl s) fun _ => (refl s).post))

theorem postCounts (h : Queues b s) (ws : List Nat) : Queues b (postCounts ws s) := by
  induction ws generalizing s with
  | nil => exact h
  | cons w ws ih => exact ih (h.trans (ite (fun _ => refl s) fun _ => (refl s).post.onCsu))

theorem close {u : State} (h : Queues b s) : Queues b (close u s) := by
  unfold Machine.close settleOffers Machine.driveInt
  exact (h.onCsu.postChanged stateWords).onBpt

theorem endSwitchover {r : ResultCode} (h : Queues b s) : Queues b (endSwitchover r s) :=
  h.trans (ite (fun _ => (refl s).onCsu.raise.onCsu) fun _ => refl s)

/-! ### The Dispatcher and the passes -/

theorem tagEvent {e : TagEvent} {i : Nat} (h : Queues b s) : Queues b (tagEvent e i s) := h.onRts

theorem recordEvent {e : TagEvent} {k : Slot} {i : Nat} (h : Queues b s) : Queues b (recordEvent e k i s) := by
  unfold Machine.recordEvent
  split
  · exact h.tagEvent
  · exact h

theorem remarkSent (h : Queues b s) : Queues b (remarkSent s) := h.onJournals rfl
theorem joinInFlight {i : Item} {r : Option (Fin 4)} (h : Queues b s) : Queues b (joinInFlight i r s) := h.onDisp.onLink

theorem startItem {c : Choice} (h : Queues b s) : Queues b (startItem c s) := by
  unfold Machine.startItem
  split
  · exact h.onDisp.onPass.joinInFlight
  · split
    · exact h.joinInFlight.remarkSent
    · split
      · exact (h.onDisp.joinInFlight).remarkSent
      · exact h
  · split
    · exact h.tagEvent.onRts.onDisp.onDisp.joinInFlight
    · exact h

theorem countCorrected {c : ReadClass} (h : Queues b s) : Queues b (countCorrected c s) :=
  ite (fun _ => h.onDisp) fun _ => h

theorem takeWord {e : InFlight} {r : Fin 4} {ro : Readout} {c : ReadClass} {d : DWord} (h : Queues b s) :
    Queues b (takeWord e r ro c d s) := by
  unfold Machine.takeWord
  split
  · split
    · exact h
    · exact ite (fun _ => h.onDisp.reportDiscard) fun _ => h.onDisp
  · exact ite (fun _ => h.onDisp.reportDiscard) fun _ => h.onDisp

theorem readoutWord (h : Queues b s) : Queues b (readoutWord s) := by
  unfold Machine.readoutWord
  split
  · exact h
  · split
    · split
      · exact h
      · exact h.countCorrected.takeWord
    · exact h

theorem entriesGoneBack (h : Queues b s) (l : List InFlight) : Queues b (entriesGoneBack l s) := by
  induction l generalizing s with
  | nil => exact h
  | cons e l ih =>
    refine ih ?_
    unfold Machine.entryGoneBack
    split
    · exact h.onDisp.recordEvent
    · exact h.onDisp
    · exact h.onDisp.onDisp.onPass

theorem cutSending {l : List InFlight} (h : Queues b s) : Queues b (cutSending l s) := by
  unfold Machine.cutSending
  split
  · exact ite (fun _ => h.draw.onLink) fun _ => h
  · exact h

theorem goBackFrom {e : SeqNo} (h : Queues b s) : Queues b (goBackFrom e s) :=
  ite (fun _ => ((h.onDisp.entriesGoneBack _).remarkSent.cutSending.onLink).onDisp) fun _ => h

/-- A copy begun for the windows IN_STEP goes on queueing their writes (R74, R120). -/
theorem copyInStep (h : Queues b s) : Queues b (copyInStep s) := by
  refine h.trans ⟨rfl, fun k hk => ?_, id⟩
  show queuesWrites (mapSlots _ s.journals.states)[k] = true
  simp only [mapSlots, Fin.getElem_fin, Vector.getElem_ofFn]
  split
  · rfl
  · exact hk

theorem clearMarks (h : Queues b s) : Queues b (clearMarks s) := h.onRts
theorem beginRefresh (h : Queues b s) : Queues b (beginRefresh s) := h.onPass
theorem restartSync (h : Queues b s) : Queues b (restartSync s) := h.clearMarks.copyInStep.onPass
theorem armSyncBegin (h : Queues b s) : Queues b (armSyncBegin s) := h.onDisp
theorem startSync (h : Queues b s) : Queues b (startSync s) := h.restartSync.armSyncBegin
theorem decideIfPaired (h : Queues b s) : Queues b (decideIfPaired s) :=
  ite (fun _ => (h.trans (ite (fun _ => refl s) fun _ => (refl s).startSync)).beginRefresh) fun _ => h

theorem syncStep (h : Queues b s) : Queues b (syncStep s) := by
  unfold Machine.syncStep
  exact h.tagEvent.onPass

theorem refreshStep (h : Queues b s) : Queues b (refreshStep s) := by
  unfold Machine.refreshStep
  refine onPass ?_
  split
  · exact h.recordEvent
  · exact h

/-- A window that begins or goes on with its copy queues its writes (R25, R73). -/
theorem copying {k : Slot} {n : Nat} (h : Queues b s) : Queues b (setJournalState k (some (.copying n)) s) := by
  refine h.trans ⟨rfl, fun j hj => ?_, id⟩
  show queuesWrites (s.journals.states.set k _)[j] = true
  simp only [Fin.getElem_fin, Vector.getElem_set]
  split
  · rfl
  · exact hj

/-! ### The effects of the rows -/

/-- On a part that captures, the port has no entry to apply (R30, R104). -/
theorem grantPart {c : PortClass} (h : Queues b s) (hc : Machine.captures s.rc = true) : Queues b (grantPart c s) := by
  have ha := (role_of_captures hc).2
  have hg : Queues b (s.onBpt fun p =>
      { p with waitCount := 0, offers := p.offers.filter fun o => decide (o.cls ≠ c) }) := h.onBpt
  unfold Machine.grantPart
  cases c with
  | apply => simpa [serve, applyGrant, nextMergeRead, applyWrite, nextWrite, ha] using hg
  | readout => exact hg.readoutWord
  | status =>
    unfold serve postingWrite
    simp only
    split
    · exact hg
    · refine ite (fun _ => ?_) fun _ => hg.onMem.onCsu
      split
      · exact hg.onMem.onCsu.onCsu
      · exact hg.onMem.onCsu

theorem portSlot {c : PortClass} (hc : Machine.captures s.rc = true) : Queues s (portSlot c s) :=
  ite (fun _ => (refl s).grantPart hc) fun _ => refl s
theorem mergeSlot (hc : Machine.captures s.rc = true) : Queues s (mergeSlot s) := ite (fun _ => portSlot hc) fun _ => refl s
theorem writeSlot (hc : Machine.captures s.rc = true) : Queues s (writeSlot s) := ite (fun _ => refl s) fun _ => portSlot hc

theorem helloTimeout (s : State) : Queues s (helloTimeout s) := by
  refine ite (fun hs => ?_) fun _ => refl s
  have hu : s.link.state ≠ .up := by simp [hs]
  unfold toTrain
  rw [if_neg hu]
  exact (refl s).onLink

theorem helloDue (s : State) : Queues s (helloDue s) := ite (fun _ => (refl s).onLink) fun _ => refl s

theorem transmitNext (h : Queues b s) : Queues b (transmitNext s) := by
  refine ite (fun _ => h.onLink.onLink) fun _ => ite (fun _ => h.onLink.onApply.onLink) fun _ =>
    ite (fun _ => h.onLink.onLink) fun _ => ite (fun _ => h.onLink.onLink) fun _ => ?_
  split
  · exact ite (fun _ => h.onDisp.onLink) fun _ => h
  · exact h

theorem frameBoundary (s : State) : Queues s (frameBoundary s) :=
  ite (fun _ => (refl s).onLink.transmitNext) fun _ => refl s

theorem helloSent (hc : Machine.captures s.rc = true) : Queues s (helloSent s) := by
  refine ite (fun _ => ?_) fun _ => refl s
  have h1 : Queues s (tryUp (s.onLink fun l => { l with helloSeenOut := true, sending := none })) :=
    (refl s).onLink.trans (ite (fun _ => (refl _).raise.onLink.onApply.onDisp.decideIfPaired) fun _ => refl _)
  rw [judgeTakeover_aside _ (role_of_captures (h1.captures hc)).1]
  exact h1

theorem countFrame (h : Queues b s) : Queues b (countFrame s) := h.onLink
theorem passFrame (h : Queues b s) : Queues b (passFrame s) := ite (fun _ => h.onLink) fun _ => h

theorem receiveNak (e : SeqNo) (s : State) : Queues s (receiveNak e s) :=
  ite (fun _ => ite (fun _ => (refl s).countFrame.goBackFrom) fun _ => (refl s).countFrame) fun _ => (refl s).passFrame

theorem receiveSequenced (f : SeqFrame) (hc : Machine.captures s.rc = true) : Queues s (receiveSequenced f s) := by
  have hs := (role_of_captures hc).1
  refine ite (fun _ => ite (fun _ => ?_) fun _ => (refl s).onLink) fun _ => (refl s).passFrame
  have h1 : takeSequenced f (Machine.countFrame s) = Machine.countFrame s := if_neg fun h => hs h.2
  rw [h1, judgeTakeover_aside (s := Machine.countFrame s) _ hs]
  exact (refl s).countFrame

theorem startNext (s : State) : Queues s (startNext s) := by
  unfold Machine.startNext
  split
  · exact (refl s).startItem
  · exact refl s

theorem beginCopy (k : Slot) (s : State) : Queues s (beginCopy k s) := ite (fun _ => (refl s).copying) fun _ => refl s

theorem insertNext (s : State) : Queues s (insertNext s) := by
  refine ite (fun _ => ?_) fun _ => refl s
  split
  · split
    · exact ((refl s).onJournals (f := fun j => { j with queue := j.queue ++ [_] }) rfl).copying
    · exact refl s
  · exact refl s

theorem visitSync (s : State) : Queues s (visitSync s) := ite (fun _ => (refl s).syncStep) fun _ => refl s
theorem finishSync (s : State) : Queues s (finishSync s) := ite (fun _ => (refl s).onPass.onDisp) fun _ => refl s
theorem visitRefresh (s : State) : Queues s (visitRefresh s) := ite (fun _ => (refl s).refreshStep) fun _ => refl s
theorem passEnd (s : State) : Queues s (passEnd s) := ite (fun _ => (refl s).onPass) fun _ => refl s

/-- A handoff that returns to ACTIVE goes on capturing (R25, R149). -/
theorem handoffExpired (s : State) : Queues s (handoffExpired s) := by
  refine ite (fun _ => endSwitchover ?_) fun _ => refl s
  exact ⟨rfl, fun _ => id, fun _ => rfl⟩

/-- A released read ends no stall (R29). -/
theorem releaseRead {a : Access} {n : Nat} (h : s.bpt.held = .stall a n) : Queues s (releaseRead s) := by
  unfold Machine.releaseRead
  simp only [h]
  exact refl s

/-- An edge of BCLK ends no stall (R32). -/
theorem clockReturned {a : Access} {n : Nat} (h : s.bpt.held = .stall a n) : Queues s (clockReturned s) := by
  unfold Machine.clockReturned
  simp only [h]
  exact (refl s).onRc ⟨rfl, rfl⟩

end Queues

end Sys2Proof.Machine
end

section
open Sys2Proof Sys2Proof.Machine
/-! How every step ends: in a close, in a hold behind one, or with nothing done; and what that settles. -/

namespace Sys2Proof.Machine

/-! ## What is pending -/

/-- The value pending for a word after a posting (R166). -/
theorem pendingValue_postInto (w x : Nat) (v : DWord) (q : List Posting) :
    pendingValue x (postInto w v q) = if x = w then some v else pendingValue x q := by
  induction q with
  | nil => by_cases h : x = w <;> simp [postInto, pendingValue, h, eq_comm]
  | cons p q ih =>
    simp only [pendingValue] at ih ⊢
    unfold postInto
    split
    · rename_i hp
      by_cases h : x = w
      · simp [h]
      · have : ¬ w = x := fun e => h e.symm
        simp [hp, this, h]
    · rename_i hp
      by_cases hx : p.word = x
      · have : ¬ x = w := fun e => hp (hx.trans e)
        simp [hx, this]
      · simpa [List.find?_cons, hx] using ih

@[simp] theorem statusWord_post (w x : Nat) (v : DWord) (s : State) :
    statusWord (post w v s) x = statusWord s x := rfl

/-- Posting the changed words leaves pending each word that does not stand, at its value, and changes nothing that is pending
for the others (R166). -/
theorem pendingValue_postChanged (b : State) (x : Nat) (ws : List Nat) (s : State) :
    pendingValue x (postChanged b ws s).csu.postQueue =
      if x ∈ ws ∧ postingStands b s x = false then some (statusWord s x) else pendingValue x s.csu.postQueue := by
  induction ws generalizing s with
  | nil => simp [postChanged]
  | cons w ws ih =>
    simp only [postChanged]
    rw [ih]
    by_cases hw : postingStands b s w = true
    · rw [if_pos hw]
      by_cases hx : x = w
      · subst hx; simp [hw]
      · simp [hx]
    · rw [if_neg hw]
      have hv : pendingValue x (post w (statusWord s w) s).csu.postQueue =
          if x = w then some (statusWord s w) else pendingValue x s.csu.postQueue :=
        pendingValue_postInto ..
      by_cases hx : x = w
      · subst hx; simp [hv, hw]
      · have hst : postingStands b (post w (statusWord s w) s) x = postingStands b s x := by
          simp only [postingStands, hv, if_neg hx, statusWord_post]
          rfl
        simp [hx, hst, hv]

/-- The close leaves every status word as it was. -/
@[simp] theorem statusWord_close (b s : State) (w : Nat) : statusWord (close b s) w = statusWord s w := by
  obtain ⟨q, o, n, h⟩ := close_spec b s
  rw [h]
  rfl

/-- What is pending after the close of a step (R166). -/
theorem pendingValue_close (b s : State) (x : Nat) :
    pendingValue x (close b s).csu.postQueue =
      if x ∈ stateWords ∧ postingStands b s x = false then some (statusWord s x) else pendingValue x s.csu.postQueue :=
  pendingValue_postChanged b x stateWords (driveInt s)

/-- The close leaves every pending state word at its present value, whatever was pending before it (R166). -/
theorem close_posted (b s : State) : PostedLaw (close b s) := by
  intro w hw v hv
  rw [pendingValue_close, statusWord_close] at *
  split at hv
  · exact (Option.some.inj hv).symm
  · rename_i hn
    have hst : postingStands b s w = true := by simpa [hw] using hn
    simp only [postingStands, hv, Bool.and_eq_true] at hst
    exact of_decide_eq_true hst.2

theorem close_interrupt (b s : State) : InterruptLaw (close b s) := by
  simp [InterruptLaw, intLevel]

/-! ## What a command does -/

/-- What a command does on `s`: an access taken, an event that may end a stall, an effect with the close, a window
installed, the end of a stall, or power-on. -/
inductive Does (s : State) : State → Prop
  | access (a : Access) : Does s (present a s)
  | event {f : State → State} (hc : ∀ {b u}, Carried b u → Carried b (f u))
      (hr : ∀ {u}, Ruled True u → Ruled True (f u)) : Does s (takeEvent f s)
  | effect {f : State → State} (hc : Carried s (f s)) (hr : Ruled True s → Ruled True (f s))
      (hq : ∀ a n, s.bpt.held = .stall a n → captures s.rc = true → Queues s (f s)) : Does s (close s (f s))
  | installed : Does s (close s (completeProlonged s))
  | room : Does s (stallRoom s)
  | expiry : Does s (stallExpiry s)
  | powered (u : UnitId) (c : Bool) (q : Option Nat) (n : Nat) (l : List Instr) : Does s (powerOn u c q s.mem n l)

/-- The tick of the postings counts anew (R166). -/
theorem does_postingTick (s : State) :
    Does s (close s ((postCounts countWords s).onCsu fun c => { c with postClock := 0 })) :=
  .effect (f := fun u => (postCounts countWords u).onCsu fun c => { c with postClock := 0 })
    (((Carried.refl s).postCounts countWords (by decide)).onCsu (by dsimp only; exact id))
    (fun h => (h.postCounts countWords).onCsu (by dsimp only)) fun _ _ _ _ => ((Queues.refl s).postCounts countWords).onCsu

/-- Every command has a next state, and does one of these. -/
theorem does_exec (c : Instr) (s : State) : ∃ t, exec c s = .next t ∧ Does s t := by
  have r := Carried.refl s
  cases c
  case powerOnReset b => exact ⟨_, rfl, .powered ..⟩
  case journalStallRoom => exact ⟨_, rfl, .room⟩
  case journalStallExpiry => exact ⟨_, rfl, .expiry⟩
  case ordinaryAccess | controlPageWrite | statusPageWrite | recordWindowWrite | journalWindowWrite | windowRead |
      livenessWrite | noticeEnable | noticeClear | defineWindow | clearWindow | setTiming | start | stop | switchover |
      takeOver | release | resume | resync | queryRecord | unknownCommand => exact ⟨_, rfl, .access _⟩
  case trainingByteReceived | byteBetweenFrames => exact ⟨_, rfl, .event .takeByte .takeByte⟩
  case receivedClockTimeout => exact ⟨_, rfl, .event .loseAlignment .loseAlignment⟩
  case helloReceived => exact ⟨_, rfl, .event .receiveHello .receiveHello⟩
  case heartbeatReceived => exact ⟨_, rfl, .event .receiveHeartbeat .receiveHeartbeat⟩
  case ackReceived => exact ⟨_, rfl, .event .receiveAck .receiveAck⟩
  case invalidFrame => exact ⟨_, rfl, .event .takeBytes .takeBytes⟩
  case heartbeatPeriodBoundary => exact ⟨_, rfl, .event .boundaryPassed .boundaryPassed⟩
  case ackTimerExpiry => exact ⟨_, rfl, .event .ackExpired .ackExpired⟩
  case sequenceClosedRetrain => exact ⟨_, rfl, .event .closedRetrain .closedRetrain⟩
  case claimInChange => exact ⟨_, rfl, .event .levelSampled .levelSampled⟩
  case dualClaimTimerExpiry => exact ⟨_, rfl, .event .dualExpired .dualExpired⟩
  case livenessExpiry => exact ⟨_, rfl, .event .livenessExpired .livenessExpired⟩
  case busClockLost => exact ⟨_, rfl, .event .clockLost .clockLost⟩
  case heldReadRelease =>
    exact ⟨_, rfl, .effect r.releaseRead .releaseRead fun _ _ h _ => .releaseRead h⟩
  case prolongedCommandCompletion => exact ⟨_, rfl, .installed⟩
  case interfaceResetEnd =>
    exact ⟨_, rfl, .effect (r.onLink (by exact id)) (fun h => h.onLink rfl rfl) fun _ _ _ _ => (Queues.refl s).onLink⟩
  case helloStateTimeout => exact ⟨_, rfl, .effect r.helloTimeout .helloTimeout fun _ _ _ _ => .helloTimeout s⟩
  case helloInterval => exact ⟨_, rfl, .effect r.helloDue .helloDue fun _ _ _ _ => .helloDue s⟩
  case frameTransmitStart => exact ⟨_, rfl, .effect r.frameBoundary .frameBoundary fun _ _ _ _ => .frameBoundary s⟩
  case helloTransmitted => exact ⟨_, rfl, .effect r.helloSent .helloSent fun _ _ _ h => .helloSent h⟩
  case nakReceived => exact ⟨_, rfl, .effect r.receiveNak .receiveNak fun _ _ _ _ => .receiveNak _ s⟩
  case sequencedFrameReceived =>
    exact ⟨_, rfl, .effect r.receiveSequenced .receiveSequenced fun _ _ _ h => .receiveSequenced _ h⟩
  case itemStart => exact ⟨_, rfl, .effect r.startNext .startNext fun _ _ _ _ => .startNext s⟩
  case readoutRead => exact ⟨_, rfl, .effect r.portSlot .portSlot fun _ _ _ h => .portSlot h⟩
  case copyStart => exact ⟨_, rfl, .effect r.beginCopy .beginCopy fun _ _ _ _ => .beginCopy _ s⟩
  case blockInsertion => exact ⟨_, rfl, .effect r.insertNext .insertNext fun _ _ _ _ => .insertNext s⟩
  case applyMergeRead => exact ⟨_, rfl, .effect r.mergeSlot .mergeSlot fun _ _ _ h => .mergeSlot h⟩
  case applyWordWrite => exact ⟨_, rfl, .effect r.writeSlot .writeSlot fun _ _ _ h => .writeSlot h⟩
  case syncVisit => exact ⟨_, rfl, .effect r.visitSync .visitSync fun _ _ _ _ => .visitSync s⟩
  case syncCompletion => exact ⟨_, rfl, .effect r.finishSync .finishSync fun _ _ _ _ => .finishSync s⟩
  case refreshVisit => exact ⟨_, rfl, .effect r.visitRefresh .visitRefresh fun _ _ _ _ => .visitRefresh s⟩
  case refreshPassEnd => exact ⟨_, rfl, .effect r.passEnd .passEnd fun _ _ _ _ => .passEnd s⟩
  case handoffTimerExpiry =>
    exact ⟨_, rfl, .effect r.handoffExpired .handoffExpired fun _ _ _ _ => .handoffExpired s⟩
  case busClockReturn =>
    exact ⟨_, rfl, .effect r.clockReturned .clockReturned fun _ _ h _ => .clockReturned h⟩
  case postingTick => exact ⟨_, rfl, does_postingTick s⟩
  case statusPostingWrite => exact ⟨_, rfl, .effect r.portSlot .portSlot fun _ _ _ h => .portSlot h⟩

/-! ## How a step ends -/

/-- How a step that began in `s` ends: its effects carry the laws over, and it is closed, or holds the access behind the
close, or has installed a window, or has done nothing, or the part is as after power-on. -/
inductive Ends (s : State) : State → Prop
  | closed {b u : State} (h : Carried s u) : Ends s (close b u)
  | held {b u : State} (x : Held) (h : Carried s u) : Ends s ((close b u).onBpt fun p => { p with held := x })
  | installed : Ends s (close s (completeProlonged s))
  | stands : Ends s s
  | powered (u : UnitId) (c : Bool) (q : Option Nat) (n : Nat) (l : List Instr) : Ends s (powerOn u c q s.mem n l)

namespace Ends

theorem takeAccess {b s : State} (a : Access) (h : Carried b s) : Ends b (takeAccess a s) := by
  simp only [Machine.takeAccess]
  split
  · exact .closed h.decodeAccess.close.forward
  · exact .closed h.decodeAccess
  · exact .held _ h.decodeAccess

theorem present (a : Access) (s : State) : Ends s (present a s) := by
  unfold Machine.present
  split
  · exact .closed ((Carried.refl s).onBpt rfl id id)
  · exact takeAccess a (.refl s)

theorem stallRoom (s : State) : Ends s (stallRoom s) := by
  by_cases hr : stallHasRoom s = true
  · have h := (Carried.refl s).stallRoom
    unfold Machine.stallRoom at h ⊢
    split
    · split
      · rw [if_pos hr]
        exact .closed ((((Carried.refl s).endHold.appendEntry (stallHasRoom_room (s := s) hr)).close).forward)
      · exact .stands
    · exact .stands
  · unfold Machine.stallRoom
    split
    · split
      · rw [if_neg hr]; exact .stands
      · exact .stands
    · exact .stands

theorem stallExpiry (s : State) : Ends s (stallExpiry s) := by
  unfold Machine.stallExpiry
  split
  · split
    · exact .stands
    · refine .closed (Carried.forward (Carried.close ?_))
      split
      · exact (Carried.refl s).endHold.enterDesync
      · exact (Carried.refl s).endHold
  · exact .stands

theorem of_does {s t : State} (h : Does s t) : Ends s t := by
  cases h with
  | access a => exact present a s
  | event hc => exact .closed (hc (Carried.refl s).stallRoom).close.resolveStall
  | effect hc => exact .closed hc
  | installed => exact .installed
  | room => exact stallRoom s
  | expiry => exact stallExpiry s
  | powered u c q n l => exact .powered u c q n l

end Ends

/-! ## What the end of a step settles -/

/-- The laws of the memory, of INT_N, of the rooms, of the posted values and of the offers (R30, R31, R166, R171). -/
structure BasicLaws (s : State) : Prop where
  mem       : MemoryLaw s
  interrupt : InterruptLaw s
  room      : RoomLaw s
  posted    : PostedLaw s

/-- The words pending after power-on are the words of the state then (R166, R168). -/
theorem powerOn_posted (u : UnitId) (c : Bool) (q : Option Nat) (m : Memory) (n : Nat) (l : List Instr) :
    PostedLaw (powerOn u c q m n l) := by
  have hp : ∀ w ∈ stateWords, pendingValue w (resetPostings u) = some (statusWord (powerOn u c none [] 0 []) w) := by
    cases u <;> cases c <;> decide
  intro w hw v hv
  exact Option.some.inj (hv.symm.trans (hp w hw))

theorem powerOn_basicLaws (u : UnitId) (c : Bool) (q : Option Nat) {m : Memory} (n : Nat) (l : List Instr)
    (h : m.wf = true) : BasicLaws (powerOn u c q m n l) ∧ OffersLaw (powerOn u c q m n l) := by
  have hr : PostsFit (resetPostings u) := by
    rw [postsFit_iff]
    cases u <;> exact ⟨by decide, by decide⟩
  have hi : InterruptLaw State.reset := by unfold InterruptLaw; decide
  have ho : currentOffers (powerOn u c q m n l) = [.status 0] := by cases u <;> rfl
  refine ⟨⟨h, hi, ⟨Nat.zero_le 32, Nat.zero_le 16, Nat.zero_le 128, Nat.zero_le 16, hr⟩,
    powerOn_posted u c q m n l⟩, ?_⟩
  rw [OffersLaw, ho]
  exact ⟨List.nodup_singleton _, fun _ => .rfl, nofun⟩

/-- A close settles the laws, from what the effects before it keep. -/
theorem close_basicLaws {b u : State} (hm : MemoryLaw u) (hr : RoomLaw u) : BasicLaws (close b u) :=
  ⟨(Carried.refl u).close.mem hm, close_interrupt b u, (Carried.refl u).close.room hr, close_posted b u⟩

/-- A window installed leaves the memory, the rooms and the offers. -/
theorem installWindow_keeps (k : Slot) (w : Window) (s : State) :
    (MemoryLaw s → MemoryLaw (installWindow k w s)) ∧ (RoomLaw s → RoomLaw (installWindow k w s)) ∧
      (installWindow k w s).bpt = s.bpt :=
  ⟨id, fun ⟨h1, h2, h3, h4, h5⟩ => ⟨h1, h2, h3, h4, h5⟩, rfl⟩

/-- A prolonged command that completes installs a window and reports it (R160). -/
theorem completeProlonged_cases (s : State) :
    (∃ k w c n, completeProlonged s = completeWith c .ok n (installWindow k w s)) ∨ completeProlonged s = s := by
  unfold completeProlonged
  split
  · rename_i k w _ _
    exact .inl ⟨k, w, _, _, rfl⟩
  · rename_i k _ _
    exact .inl ⟨k, .none, _, _, rfl⟩
  · exact .inr rfl

theorem completeProlonged_keeps (s : State) :
    (MemoryLaw s → MemoryLaw (completeProlonged s)) ∧ (RoomLaw s → RoomLaw (completeProlonged s)) ∧
      (s.bpt.offers.Nodup → (completeProlonged s).bpt.offers.Nodup) := by
  rcases completeProlonged_cases s with ⟨k, w, c, n, h⟩ | h
  · rw [h]
    obtain ⟨hm, hr, hb⟩ := installWindow_keeps k w s
    have hc := (Carried.refl (installWindow k w s)).completeWith (c := c) (r := .ok) (n := n)
    exact ⟨hc.mem ∘ hm, hc.room ∘ hr, fun ho => hc.once (hb ▸ ho)⟩
  · rw [h]
    exact ⟨id, id, id⟩

/-- The laws do not read the hold of the bus path. -/
theorem BasicLaws.holding {s : State} (x : Held) (h : BasicLaws s) : BasicLaws (s.onBpt fun p => { p with held := x }) :=
  ⟨h.mem, h.interrupt, h.room, h.posted⟩

theorem offersLaw_holding {s : State} (x : Held) (h : OffersLaw s) : OffersLaw (s.onBpt fun p => { p with held := x }) :=
  ⟨h.1, h.2.1, h.2.2⟩

/-- However a step ends, the laws stand (R30, R31, R166, R171). -/
theorem Ends.basicLaws {s t : State} (h : Ends s t) (hs : BasicLaws s) :
    BasicLaws t ∧ (OffersLaw s → OffersLaw t) := by
  cases h with
  | closed h => exact ⟨close_basicLaws (h.mem hs.mem) (h.room hs.room), fun ho => close_offersLaw _ _ (h.once ho.1)⟩
  | @held b u x h =>
    exact ⟨(close_basicLaws (h.mem hs.mem) (h.room hs.room)).holding x,
      fun ho => offersLaw_holding x (close_offersLaw b u (h.once ho.1))⟩
  | installed =>
    obtain ⟨hm, hr, ho⟩ := completeProlonged_keeps s
    exact ⟨close_basicLaws (hm hs.mem) (hr hs.room), fun hl => close_offersLaw _ _ (ho hl.1)⟩
  | stands => exact ⟨hs, id⟩
  | powered u c q n l => exact ⟨(powerOn_basicLaws u c q n l hs.mem).1, fun _ => (powerOn_basicLaws u c q n l hs.mem).2⟩

/-- A tick of REFCLK changes nothing that the laws read. -/
theorem tick_basicLaws {s : State} (hs : BasicLaws s) : BasicLaws (tick s) ∧ (OffersLaw s → OffersLaw (tick s)) :=
  ⟨⟨hs.mem, hs.interrupt, hs.room, hs.posted⟩, id⟩

/-- What a step does: an access behind an ended hold is taken, a tick passes, or a command does what it does (log
entry 1). -/
theorem step_does {s t : State} (h : step s = .next t) :
    (∃ a rest, busBlocked s = false ∧ t = takeAccess a (s.onBpt fun b => { b with waiting := rest })) ∨ t = tick s ∨
      ∃ l, Does { s with pending := l } t := by
  unfold step at h
  split at h
  · rename_i hp
    unfold idle at h
    split at h
    · rename_i hw
      cases h
      unfold takeWaiting at hw
      split at hw
      · split at hw
        · cases hw
        · rename_i hb
          cases hw
          exact .inl ⟨_, _, by simpa using hb, rfl⟩
      · cases hw
    · split at h
      · rename_i c _
        obtain ⟨u, hu, hd⟩ := does_exec c s
        cases hu.symm.trans h
        refine .inr (.inr ⟨[], ?_⟩)
        rwa [show ({ s with pending := [] } : State) = s by rw [← hp]]
      · cases h
        exact .inr (.inl rfl)
  · rename_i c rest _
    obtain ⟨u, hu, hd⟩ := does_exec c { s with pending := rest }
    cases hu.symm.trans h
    exact .inr (.inr ⟨rest, hd⟩)

end Sys2Proof.Machine

/-- Settles O56: the effects of a step carry the form and the rooms over, and its close settles the rest. -/
theorem basicLawsKept : Obligations.BasicLawsKept := by
  intro s t hm hi hr hp hstep
  have hs : BasicLaws s := ⟨hm, hi, hr, hp⟩
  have ht : BasicLaws t ∧ (OffersLaw s → OffersLaw t) := by
    rcases step_does hstep with ⟨a, rest, -, rfl⟩ | rfl | ⟨l, h⟩
    · exact (Ends.takeAccess a ((Carried.refl s).onBpt rfl id id)).basicLaws hs
    · exact tick_basicLaws hs
    · exact (Ends.of_does h).basicLaws ⟨hm, hi, hr, hp⟩
  exact ⟨ht.1.mem, ht.1.interrupt, ht.1.room, ht.1.posted, ht.2⟩
end

section
open Sys2Proof Sys2Proof.Machine
/-! Every step keeps the law of the roles and of the held access. -/

namespace Sys2Proof.Machine

/-! ## The decode of an access that is held -/

/-- A journal region lies in the slot it names (R12, R17). -/
theorem slotOf_journal {t : Vector Window 8} {a : Addr} {k : Slot} {w : JournalWindow} {f : Nat}
    (h : regionOf t a = .journal k w f) : slotOf t a.toNat = some k := by
  have hp : placeOf t a.toNat = .journal k w f := by
    unfold regionOf at h
    split at h
    · cases h
    · split at h
      · cases h
      · split at h <;> cases h
        assumption
  unfold placeOf at hp
  split at hp
  · cases hp
  · split at hp <;> cases hp
    assumption

/-- An access is held at its decode for two reasons, and the decode then changes nothing: a journal write that is captured
and queued finds no room (R26), or an entry of the apply queue covers the word read (R28). -/
theorem decodeAccess_held {a : Access} {s : State} {x : Held} (h : (decodeAccess a s).1 = .held x) :
    (decodeAccess a s).2 = s ∧
      (x = .stall a 0 ∧ a.write = true ∧ captures s.rc = true ∧ queuesWrites (stallState s a) = true ∨
        x = .read a.addr ∧ covered s a.addr = true) := by
  unfold decodeAccess at h ⊢
  split at h
  · cases h
  · split at h <;> cases h
  · split at h
    · unfold recordWrite at h
      split at h
      · cases h
      · split at h <;> cases h
    · split at h
      · rename_i hw hc
        cases h
        simp [hw, hc.1, hc.2]
      · cases h
  · rename_i k w f hk
    split at h
    · rename_i hw
      unfold journalWrite at h
      split at h
      · cases h
      · split at h
        · rename_i hc
          split at h
          · cases h
          · rename_i hr
            cases h
            have hs : queuesWrites (stallState s a) = true := by
              unfold stallState stallSlot
              rw [slotOf_journal hk]
              exact hc.2.2
            simp_all [journalWrite]
        · cases h
    · split at h
      · rename_i hw hc
        cases h
        simp [hw, hc.1, hc.2]
      · cases h
  · cases h

/-! ## The stalled write -/

/-- A stall that an effect leaves stays lawful where its window, its state and the role go on queueing it (R25). -/
theorem stallLaw_of_queues {s t : State} (hs : StallLaw s) (hh : ∀ a n, t.bpt.held = .stall a n → s.bpt.held = .stall a n)
    (hq : ∀ a n, s.bpt.held = .stall a n → captures s.rc = true → Queues s t) : StallLaw t := by
  intro a n ht
  obtain ⟨hw, hc, hj⟩ := hs a n (hh a n ht)
  obtain ⟨h1, h2, h3⟩ := hq a n (hh a n ht) hc
  refine ⟨hw, h3 hc, ?_⟩
  unfold stallState stallSlot at hj ⊢
  rw [h1]
  split at hj
  · exact h2 _ hj
  · cases hj

theorem stallLaw_of_none {t : State} (h : ∀ a n, t.bpt.held ≠ .stall a n) : StallLaw t := fun a n ht => absurd ht (h a n)

/-- No stall stands behind a write driven, or waiting for its memory cycle (R16). -/
theorem forward_not_stalled {s : State} (a : Access) (h : s.bpt.held = .none) (x : Access) (n : Nat) :
    (forward a s).bpt.held ≠ .stall x n := fun hx => nomatch h.symm.trans ((Carried.refl s).forward.stall x n hx)

theorem close_not_stalled {b s : State} (h : ∀ x n, s.bpt.held ≠ .stall x n) (x : Access) (n : Nat) :
    (close b s).bpt.held ≠ .stall x n := fun hx => h x n ((Carried.refl s).close.stall x n hx)

theorem takeAccess_stall {a : Access} {s : State} (h : s.bpt.held = .none) : StallLaw (takeAccess a s) := by
  have hd : ∀ x n, (decodeAccess a s).2.bpt.held ≠ .stall x n := fun x n hx =>
    nomatch h.symm.trans ((Carried.refl s).decodeAccess.stall x n hx)
  simp only [takeAccess]
  split
  · refine stallLaw_of_none fun x n hx => ?_
    exact nomatch h.symm.trans ((Carried.refl s).decodeAccess.close.forward.close.stall x n hx)
  · exact stallLaw_of_none (close_not_stalled hd)
  · rename_i x hx
    obtain ⟨h2, ⟨rfl, hw, hc, hq⟩ | ⟨rfl, -⟩⟩ := decodeAccess_held hx
    · intro y n hy
      cases hy
      rw [h2]
      exact ⟨hw, by simpa using hc, by simpa [stallState, stallSlot] using hq⟩
    · exact stallLaw_of_none nofun

theorem present_stall {a : Access} {s : State} (h : StallLaw s) : StallLaw (present a s) := by
  by_cases hb : (busBlocked s || !s.bpt.waiting.isEmpty) = true
  · unfold present
    rw [if_pos hb]
    exact stallLaw_of_queues h (fun x n hx => ((Carried.refl s).onBpt (f := fun b => { b with waiting := b.waiting ++ [a] })
      rfl id id).close.stall x n hx) fun _ _ _ _ => (Queues.refl s).onBpt.close
  · unfold present
    rw [if_neg hb]
    refine takeAccess_stall ?_
    simp only [busBlocked, Bool.or_eq_true, decide_eq_true_eq, not_or] at hb
    simpa using hb.1.1

/-- An event of R27 leaves a stall only where the write is still captured and queued. -/
theorem finish_stall {b s : State} (h : ∀ a n, s.bpt.held = .stall a n → a.write = true) : StallLaw (finish b s) := by
  intro a n ht
  have hs := (Carried.refl s).close (u := b)
  generalize hu : close b s = u at hs
  have hf : finish b s = close u (resolveStall u) := by rw [← hu]; rfl
  rw [hf] at ht ⊢
  have hr : (resolveStall u).bpt.held = .stall a n := (Carried.refl (resolveStall u)).close.stall a n ht
  have hu' : u.bpt.held = .stall a n := (Carried.refl u).resolveStall.stall a n hr
  have hw := h a n (hs.stall a n hu')
  unfold resolveStall at hr
  simp only [hu'] at hr
  split at hr
  · cases hr
  · split at hr
    · rename_i hc
      simp only [Bool.and_eq_true] at hc
      have he : resolveStall u = u := by
        unfold resolveStall
        simp only [hu']
        rw [if_neg (by assumption), if_pos (by simp [hc])]
      rw [he]
      exact ⟨hw, by simpa using hc.1, by simpa [stallState, stallSlot] using hc.2⟩
    · exact absurd hr (forward_not_stalled a rfl a n)

/-- Room, and expiry, leave the stall they end, or all as it was (R26). -/
theorem stallRoom_stall {s : State} (h : StallLaw s) : StallLaw (stallRoom s) := by
  unfold stallRoom
  split
  · split
    · split
      · exact stallLaw_of_none (close_not_stalled (forward_not_stalled _ (by rw [close_held]; rfl)))
      · exact h
    · exact h
  · exact h

theorem stallExpiry_stall {s : State} (h : StallLaw s) : StallLaw (stallExpiry s) := by
  unfold stallExpiry
  split
  · split
    · exact h
    · refine stallLaw_of_none (close_not_stalled (forward_not_stalled _ ?_))
      split
      · obtain ⟨p, hp⟩ := enterDesync_spec (by assumption) (endHold s)
        rw [hp]
        simp [endHold]
      · simp [endHold]
  · exact h

/-! ## The held read, and the frame being sent -/

theorem takeAccess_read {a : Access} {s : State} (h : ReadLaw s) : ReadLaw (takeAccess a s) := by
  simp only [takeAccess]
  split
  · exact (Carried.refl s).decodeAccess.close.forward.close.read h
  · exact (Carried.refl s).decodeAccess.close.read h
  · rename_i x hx
    obtain ⟨h2, ⟨rfl, -⟩ | ⟨rfl, hc⟩⟩ := decodeAccess_held hx
    · exact nofun
    · intro y hy
      cases hy
      rw [h2]
      simpa [covered] using hc

theorem takeAccess_sending {a : Access} {s : State} (h : SendingLaw s) : SendingLaw (takeAccess a s) := by
  simp only [takeAccess]
  split
  · exact (Carried.refl s).decodeAccess.close.forward.close.sending h
  · exact (Carried.refl s).decodeAccess.close.sending h
  · exact (Carried.refl s).decodeAccess.close.sending h

/-! ## What a command keeps -/

namespace Does

variable {s t : State}

theorem ruled (h : Does s t) (hr : Ruled True s) : Ruled True t := by
  cases h with
  | access a => exact hr.present
  | event hc hf => exact hr.takeEvent hf
  | effect hc hf => exact (hf hr).close
  | installed => exact hr.completeProlonged.close
  | room => exact hr.stallRoom
  | expiry => exact hr.stallExpiry
  | powered u c q n l => exact powerOn_ruled u c q s.mem n l

/-- A window command completes in INIT, where no write is captured and no entry is applied (R11, R104). -/
theorem installed_aside (hr : Ruled True s) :
    completeProlonged s = s ∨ s.rc.role = .init ∧ (completeProlonged s).bpt = s.bpt ∧ (completeProlonged s).link = s.link ∧
      (completeProlonged s).rc = s.rc := by
  rcases hx : s.csu.running with _ | (⟨k, w, n⟩ | ⟨k, n⟩ | _)
  · exact .inl (by simp [completeProlonged, hx])
  · refine .inr ⟨hr.table (by simp [tableCommandRuns, hx]), ?_⟩
    unfold completeProlonged
    simp only [hx]
    exact ⟨rfl, rfl, rfl⟩
  · refine .inr ⟨hr.table (by simp [tableCommandRuns, hx]), ?_⟩
    unfold completeProlonged
    simp only [hx]
    exact ⟨rfl, rfl, rfl⟩
  · exact .inl (by simp [completeProlonged, hx])

theorem stall (h : Does s t) (hr : Ruled True s) (hs : StallLaw s) : StallLaw t := by
  cases h with
  | access a => exact present_stall hs
  | event hc =>
    refine finish_stall fun a n hx => ?_
    exact (hs a n ((hc (Carried.refl s).stallRoom).stall a n hx)).1
  | effect hc hf hq =>
    exact stallLaw_of_queues hs (fun a n hx => hc.close.stall a n hx) fun a n hx hcap => (hq a n hx hcap).close
  | installed =>
    rcases installed_aside hr with h | ⟨h0, hb, -⟩
    · rw [h]
      exact stallLaw_of_queues hs (fun a n hx => (Carried.refl s).close.stall a n hx) fun _ _ _ _ => (Queues.refl s).close
    · refine stallLaw_of_none (close_not_stalled fun a n hx => ?_)
      have hc := (hs a n (hb ▸ hx)).2.1
      simp [captures, h0] at hc
  | room => exact stallRoom_stall hs
  | expiry => exact stallExpiry_stall hs
  | powered => exact stallLaw_of_none nofun

theorem read (h : Does s t) (hr : Ruled True s) (hs : ReadLaw s) : ReadLaw t := by
  cases h with
  | access a =>
    unfold present
    split
    · exact ((Carried.refl s).onBpt rfl id id).close.read hs
    · exact takeAccess_read hs
  | event hc => exact ((hc (Carried.refl s).stallRoom).finish).read hs
  | effect hc => exact hc.close.read hs
  | installed =>
    rcases installed_aside hr with h | ⟨h0, hb, -⟩
    · rw [h]
      exact (Carried.refl s).close.read hs
    · refine (Carried.refl _).close.read fun a ha => ?_
      have hc := hs a (hb ▸ ha)
      simp [covered, hr.queue_empty (by simp [h0, applies])] at hc
  | room => exact (Carried.refl s).stallRoom.read hs
  | expiry => exact (Carried.refl s).stallExpiry.read hs
  | powered => exact nofun

theorem sending (h : Does s t) (hr : Ruled True s) (hs : SendingLaw s) : SendingLaw t := by
  cases h with
  | access a =>
    unfold present
    split
    · exact ((Carried.refl s).onBpt rfl id id).close.sending hs
    · exact takeAccess_sending hs
  | event hc => exact ((hc (Carried.refl s).stallRoom).finish).sending hs
  | effect hc => exact hc.close.sending hs
  | installed =>
    refine (Carried.refl _).close.sending ?_
    rcases installed_aside hr with h | ⟨-, -, hl, -⟩
    · rw [h]
      exact hs
    · unfold SendingLaw
      rw [hl]
      exact hs
  | room => exact (Carried.refl s).stallRoom.sending hs
  | expiry => exact (Carried.refl s).stallExpiry.sending hs
  | powered => exact fun hx => absurd rfl hx

end Does

/-! ## What a tick keeps -/

theorem tickOf_none (c : Option Nat) : tickOf c = none ↔ c = none := by simp [tickOf]

/-- A tick of REFCLK advances counts alone (log entry 1). -/
theorem tick_ruled {s : State} (h : Ruled True s) : Ruled True (tick s) := by
  have hr : s.csu.running.map Running.tick = some .switchover ↔ s.csu.running = some .switchover := by
    rcases s.csu.running with _ | (_ | _ | _) <;> simp [Running.tick]
  have hd : s.rc.dual.tick = .stopped ↔ s.rc.dual = .stopped := by cases s.rc.dual <;> simp [DualTimer.tick]
  exact { h with
    claim := ⟨h.claim.1, hd.trans h.claim.2⟩
    handoff := fun hx => hr.2 (h.handoff hx)
    ended := fun hp hx => h.ended hp (hr.1 hx)
    table := fun hx => h.table (by
      simp only [tableCommandRuns, tick] at hx ⊢
      rcases hc : s.csu.running with _ | (_ | _ | _) <;> simp_all [Running.tick])
    clock := fun hx hq => h.clock hx ((tickOf_none _).1 hq) }

/-- The hold over a tick is the same hold: a stall counts on (R26). -/
theorem held_tick (s : State) :
    (∀ a n, (tick s).bpt.held = .stall a n → ∃ m, s.bpt.held = .stall a m) ∧
      ∀ a, (tick s).bpt.held = .read a → s.bpt.held = .read a := by
  simp only [tick]
  rcases s.bpt.held with _ | c | ⟨c, m⟩ | c <;> simp [Held.tick]

theorem tick_stall {s : State} (h : StallLaw s) : StallLaw (tick s) := by
  intro a n ht
  obtain ⟨m, hm⟩ := (held_tick s).1 a n ht
  exact h a m hm

theorem tick_read {s : State} (h : ReadLaw s) : ReadLaw (tick s) := fun a ha => h a ((held_tick s).2 a ha)

end Sys2Proof.Machine

/-- Settles O57: the effects of each command keep the role's law; an event of R27 resolves the stalled write under what it
leaves, and any other effect leaves the write captured and queued. -/
theorem roleKept : Obligations.RoleKept := by
  intro s t hrole hlink hstall hstep
  have hr : Ruled True s := (ruled_iff s).2 ⟨hrole, hlink⟩
  have ht : Ruled True t ∧ StallLaw t ∧ (ReadLaw s → ReadLaw t) ∧ (SendingLaw s → SendingLaw t) := by
    rcases step_does hstep with ⟨a, rest, hb, rfl⟩ | rfl | ⟨l, h⟩
    · have hn : s.bpt.held = .none := by
        simp only [busBlocked, Bool.or_eq_false_iff, decide_eq_false_iff_not] at hb
        simpa using hb.1
      exact ⟨Ruled.takeAccess hr.onBpt, takeAccess_stall hn, fun h => takeAccess_read h, fun h => takeAccess_sending h⟩
    · exact ⟨tick_ruled hr, tick_stall hstall, tick_read, id⟩
    · have hr' : Ruled True { s with pending := l } := { hr with }
      exact ⟨h.ruled hr', h.stall hr' hstall, h.read hr', h.sending hr'⟩
  exact ⟨((ruled_iff t).1 ht.1).1, ((ruled_iff t).1 ht.1).2, ht.2⟩
end

section
open Sys2Proof Sys2Proof.Machine
/-! Accesses of the two pages, ordinary accesses, and accesses that wait. -/

namespace Sys2Proof.Machine

/-! ## The regions of the pages -/

/-- A word of the control page (R17). -/
theorem regionOf_control (t : Vector Window 8) (i : BitVec 6) :
    regionOf t (BitVec.ofNat 19 (Config.controlBase + i.toNat)) = .control i.toNat := by
  have ha : (BitVec.ofNat 19 (Config.controlBase + i.toNat)).toNat = Config.controlBase + i.toNat := by
    have hi := i.isLt
    simp only [BitVec.toNat_ofNat, Config.controlBase]
    omega
  rw [regionOf, ha, if_pos (Nat.le_add_right ..), Nat.add_sub_cancel_left]

theorem statusAddr_toNat (i : BitVec 6) : (BitVec.ofNat 19 (Config.statusBase + i.toNat)).toNat = Config.statusBase + i.toNat := by
  have hi := i.isLt
  simp only [BitVec.toNat_ofNat, Config.statusBase]
  omega

/-- A word of the status page (R17). -/
theorem regionOf_status (t : Vector Window 8) (i : BitVec 6) :
    regionOf t (BitVec.ofNat 19 (Config.statusBase + i.toNat)) = .status i.toNat := by
  have hi := i.isLt
  have hc : ¬ Config.controlBase ≤ Config.statusBase + i.toNat := by
    simp only [Config.controlBase, Config.statusBase]
    omega
  rw [regionOf, statusAddr_toNat, if_neg hc, if_pos (Nat.le_add_right ..), Nat.add_sub_cancel_left]

section
variable {t : Vector Window 8} {a : Addr}

theorem not_control (h : a.toNat < Config.statusBase) : ¬ Config.controlBase ≤ a.toNat := fun hc =>
  absurd (Nat.lt_of_le_of_lt hc h) (by decide)

/-- A word of a RECORD window, below the pages (R17). -/
theorem regionOf_record {k : Slot} {w : RecordWindow} {i p : Nat} (h : a.toNat < Config.statusBase)
    (hp : placeOf t a.toNat = .record k w i p) : regionOf t a = .record k w i p := by
  rw [regionOf, if_neg (not_control h), if_neg (Nat.not_le.2 h), hp]

/-- A word of a JOURNAL window, below the pages (R17). -/
theorem regionOf_journal {k : Slot} {w : JournalWindow} {f : Nat} (h : a.toNat < Config.statusBase)
    (hp : placeOf t a.toNat = .journal k w f) : regionOf t a = .journal k w f := by
  rw [regionOf, if_neg (not_control h), if_neg (Nat.not_le.2 h), hp]

end

/-! ## Accesses taken on a free bus -/

section
variable {a : Access} {s d : State}

/-- A write that is forwarded: what its decode delivered, and the word in memory (R16). -/
theorem present_write (hb : BusFree s) (hw : a.write = true) (h : decodeAccess a s = (.forwarded, d))
    (hc : d.rc.bclkQuiet = none) (hn : d.bpt.waitCount < 32) :
    (present a s).unreported = ({ d with mem := memDrive d.mem a } : State).unreported := by
  rw [present_open hb.1, takeAccess_forwarded h hc hn, driveAccess_unreported, if_pos hw]
  rfl

/-- A read that is forwarded: the word as the SSRAM holds it (R16). -/
theorem present_read (hb : BusFree s) (hw : a.write = false) (h : decodeAccess a s = (.forwarded, s)) :
    (present a s).unreported =
      ({ s with bpt := { s.bpt with readData := memRead s.mem a.addr } } : State).unreported := by
  rw [present_open hb.1, takeAccess_forwarded h hb.1.2.2 hb.2, driveAccess_unreported, if_neg (by simp [hw])]
  rfl

/-- A write forwarded with no effect of its decode. -/
theorem present_plain (hb : BusFree s) (hw : a.write = true) (h : decodeAccess a s = (.forwarded, s)) :
    (present a s).unreported = ({ s with mem := memDrive s.mem a } : State).unreported :=
  present_write hb hw h hb.1.2.2 hb.2

/-- An access that is suppressed completes with its decode (R16, R23). -/
theorem present_suppressed (hb : BusOpen s) (h : decodeAccess a s = (.suppressed, d)) : present a s = close s d := by
  rw [present_open hb]
  simp [takeAccess, h]

end

/-- INT_N after an access that is forwarded (R171). -/
theorem present_interrupt {a : Access} {s d : State} (hb : BusOpen s) (h : decodeAccess a s = (.forwarded, d)) :
    InterruptLaw (present a s) := by
  rw [present_open hb]
  simp only [takeAccess, h]
  exact close_interrupt ..

/-- INT_N is low exactly while a kind is pending and enabled (R171). -/
theorem intLow_iff {s : State} (h : InterruptLaw s) : s.csu.intHigh = false ↔ s.csu.pendingSet &&& s.csu.enableSet ≠ 0 := by
  rw [h, intLevel, decide_eq_false_iff_not]

/-- The decode of a write of the control page (R18, R19). -/
theorem decodeAccess_control (w : BitVec 6) (data : DWord) (check e : Byte) (s : State) :
    decodeAccess (controlAccess w data check e) s = (.forwarded, controlDecode w.toNat data e s) := by
  have hr : regionOf s.windows (controlAccess w data check e).addr = .control w.toNat := regionOf_control ..
  unfold decodeAccess
  rw [hr]
  rfl

/-- The merge of a write into the shadow (R18). -/
theorem mergeShadow_eq (i : Nat) (d : DWord) (e : Byte) (s : State) :
    mergeShadow i d e s =
      { s with
        bpt :=
          { s.bpt with
            shadow := if h : i < 16 then s.bpt.shadow.set i (mergeBytes s.bpt.shadow[i] d e) else s.bpt.shadow } } := by
  unfold mergeShadow
  split
  · rfl
  · rfl

/-- A word of the control page without an event (R19). -/
theorem controlEvent_none {i : Nat} (h : i ≠ 0 ∧ i ≠ 8 ∧ i ≠ 9 ∧ i ≠ 10) (s : State) : controlEvent i s = s := by
  obtain ⟨h0, h8, h9, h10⟩ := h
  unfold controlEvent
  split
  · exact absurd rfl h0
  · exact absurd rfl h8
  · exact absurd rfl h9
  · exact absurd rfl h10
  · rfl

/-- The decode of an ordinary access, and of a read of the pages: nothing (R16, R18, R21). -/
theorem decodeAccess_ordinary {a : Access} {s : State}
    (h : regionOf s.windows a.addr = .ordinary ∨ (a.write = false ∧ Config.statusBase ≤ a.addr.toNat)) :
    decodeAccess a s = (.forwarded, s) := by
  rcases h with h | ⟨hw, ha⟩
  · unfold decodeAccess
    rw [h]
  · unfold decodeAccess regionOf
    by_cases hc : Config.controlBase ≤ a.addr.toNat
    · simp [hc, hw]
    · simp [hc, ha, hw]

/-! ## The word in memory after a write -/

/-- A write of no byte leaves the word as it was (log entry 4). -/
theorem memRead_drive_none {m : Memory} {a : Access} (hm : m.wf = true) (he : a.enables = 0) (b : Addr) :
    memRead (memDrive m a) b = memRead m b := by
  by_cases hb : b = a.addr
  · subst hb
    rw [memDrive, memRead_write_same _ _ _ hm, writtenWord, if_neg (by rw [he]; decide), if_pos he]
  · exact memRead_write_other _ _ _ _ hm hb

/-- A write of all bytes leaves the word as driven (R16). -/
theorem memRead_drive_full {m : Memory} {a : Access} (hm : m.wf = true) (he : a.enables = 0xFF) :
    memRead (memDrive m a) a.addr = ⟨a.data, a.check⟩ := by
  rw [memDrive, memRead_write_same _ _ _ hm, writtenWord, if_pos he]

theorem memRead_drive_other {m : Memory} {a : Access} {b : Addr} (hm : m.wf = true) (hb : b ≠ a.addr) :
    memRead (memDrive m a) b = memRead m b := memRead_write_other _ _ _ _ hm hb

/-- The memory of a state is what the view shows. -/
theorem mem_of_unreported {s t : State} (h : t.unreported = s.unreported) : t.mem = s.mem := by
  obtain ⟨-, -, -, -, -, -, -, -, hm, -⟩ := unreported_fields h
  exact hm

/-- The word of a status page violation holds its address (R178). -/
theorem statusWord_violation (s : State) : bitsOf (statusWord s 7) 32 19 = s.csu.violation.toNat := by
  have hd := (desyncSet s).isLt
  have hv := s.csu.violation.isLt
  have hx : (statusWord s 7).extractLsb' 32 19 = s.csu.violation := by
    apply BitVec.eq_of_getLsbD_eq
    intro i hi
    have h1 : (desyncSet s).getLsbD (32 + i) = false := BitVec.getLsbD_of_ge _ _ (by omega)
    simp [statusWord, placed, hi, h1, show 32 + i < 64 by omega]
  rw [bitsOf, hx]

end Sys2Proof.Machine

/-- Settles O5: the decode delivers nothing, and the access has its memory cycle. -/
theorem ordinaryForwarded : Obligations.OrdinaryForwarded := by
  intro a s hb ha
  have hd := decodeAccess_ordinary ha
  rcases hw : a.write with _ | _
  · have ht := present_read hb hw hd
    have hm : (present a s).mem = s.mem := (mem_of_unreported ht).trans rfl
    exact ⟨_, rfl, by simpa using ht, fun _ b _ => congrArg (memRead · b) hm, fun _ h => nomatch h⟩
  · have ht := present_plain hb hw hd
    have hm := mem_of_unreported ht
    refine ⟨_, rfl, ht, fun hwf b hb => ?_, fun hwf _ he => ?_⟩
    · rw [hm]
      rcases hb with hb | hb | hb
      · exact memRead_drive_other hwf hb
      · cases hb
      · exact memRead_drive_none hwf hb b
    · rw [hm]
      exact memRead_drive_full hwf he

/-- Settles O6: the decode merges the write into the shadow and delivers no event. -/
theorem controlPageMerge : Obligations.ControlPageMerge := by
  intro w data check e s hb hw
  have hd : controlDecode w.toNat data e s = mergeShadow w.toNat data e s := by
    simp only [controlDecode]
    rcases hw with ⟨h0, h8, h9, h10⟩ | he
    · have hn (v : BitVec 6) (h : w ≠ v) : w.toNat ≠ v.toNat := fun hx => h (BitVec.eq_of_toNat_eq hx)
      rw [controlEvent_none ⟨hn 0 h0, hn 8 h8, hn 9 h9, hn 10 h10⟩]
      exact ite_self _
    · rw [if_pos he]
  have hx := decodeAccess_control w data check e s
  rw [hd, mergeShadow_eq] at hx
  exact ⟨_, rfl, present_write hb rfl hx hb.1.2.2 hb.2⟩

/-- Settles O8: the decode of a write raises the violation and completes the access, and a read is ordinary. -/
theorem statusPageSuppressed : Obligations.StatusPageSuppressed := by
  refine ⟨fun w data check e s hb => ?_, fun w s hb => ?_⟩
  · have hr : regionOf s.windows (statusAccess w data check e).addr = .status w.toNat := regionOf_status ..
    have hd : decodeAccess (statusAccess w data check e) s =
        (.suppressed, pageViolation (statusAccess w data check e).addr s) := by
      unfold decodeAccess
      rw [hr]
      rfl
    have ht := present_suppressed hb hd
    refine ⟨_, rfl, (congrArg State.unreported ht).trans ((close_unreported ..).trans rfl), ?_⟩
    rw [show present (statusAccess w data check e) s = _ from ht, statusWord_violation, close_violation]
    exact statusAddr_toNat w
  · refine ⟨_, rfl, present_read hb rfl (decodeAccess_ordinary (.inr ⟨rfl, ?_⟩))⟩
    exact (statusAddr_toNat w).symm ▸ Nat.le_add_right ..

/-- Settles O12: every access is presented at the one port, which takes none. -/
theorem blockedAccessWaits : Obligations.BlockedAccessWaits := by
  intro s h
  have hb : busBlocked s = true ∨ s.bpt.waiting ≠ [] := by
    rcases h with h | h | h
    · exact .inl (by simp [busBlocked, h])
    · exact .inl (by simp [busBlocked, clockRuns, Option.isSome_iff_ne_none, h])
    · exact .inr h
  exact ⟨fun a => ⟨_, rfl, present_blocked hb⟩, fun w d c e => ⟨_, rfl, present_blocked hb⟩,
    fun w d c e => ⟨_, rfl, present_blocked hb⟩, fun a d c e => ⟨_, rfl, present_blocked hb⟩,
    fun a d c e => ⟨_, rfl, present_blocked hb⟩, fun a => ⟨_, rfl, present_blocked hb⟩,
    fun r c e => ⟨_, rfl, present_blocked hb⟩, fun r c e => ⟨_, rfl, present_blocked hb⟩⟩

/-- Settles O15: the three events on the merged shadow, and the close that drives INT_N. -/
theorem housekeepingWords : Obligations.HousekeepingWords := by
  intro data check e s hb he
  have hx (w : BitVec 6) : decodeAccess (controlAccess w data check e) s =
      (.forwarded, controlEvent w.toNat (mergeShadow w.toNat data e s)) := by
    rw [decodeAccess_control, controlDecode, if_neg he]
  have hi (w : BitVec 6) : InterruptLaw (present (controlAccess w data check e) s) :=
    present_interrupt hb.1 (hx w)
  have h8 := hx 8
  have h9 := hx 9
  have h10 := hx 10
  refine ⟨⟨_, rfl, ?_⟩, ⟨_, rfl, ?_, intLow_iff (hi 9)⟩, ⟨_, rfl, ?_, intLow_iff (hi 10)⟩⟩
  · by_cases h0 : s.rc.role = .init
    · have hd : controlEvent 8 (mergeShadow 8 data e s) = mergeShadow 8 data e s := if_pos h0
      refine (present_write hb rfl (h8.trans (congrArg _ hd)) hb.1.2.2 hb.2).trans ?_
      rw [if_pos h0]
      rfl
    · have hd : controlEvent 8 (mergeShadow 8 data e s) = startLiveness (mergeShadow 8 data e s) := if_neg h0
      refine (present_write hb rfl (h8.trans (congrArg _ hd)) hb.1.2.2 hb.2).trans ?_
      rw [if_neg h0]
      rfl
  · have hd : controlEvent 9 (mergeShadow 9 data e s) =
        enableEvent (mergeBytes s.bpt.shadow[9] data e) (mergeShadow 9 data e s) := by
      simp [controlEvent, shadowWord, mergeShadow]
    exact present_write hb rfl (h9.trans (congrArg _ hd)) hb.1.2.2 hb.2
  · have hd : controlEvent 10 (mergeShadow 10 data e s) =
        clearEvent (mergeBytes s.bpt.shadow[10] data e) (mergeShadow 10 data e s) := by
      simp [controlEvent, shadowWord, mergeShadow]
    exact present_write hb rfl (h10.trans (congrArg _ hd)) hb.1.2.2 hb.2
end

section
open Sys2Proof Sys2Proof.Machine
/-! Accesses of the windows: captured, suppressed, stalled and held, and how the holds end. -/

namespace Sys2Proof.Machine

variable {s : State}

/-! ## What a role does with window writes -/

theorem captures_not_suppresses {c : RoleController} (h : captures c = true) : suppresses c = false := by
  simp only [captures, suppresses, decide_eq_true_eq, decide_eq_false_iff_not] at h ⊢
  rintro (h1 | h1 | ⟨h1, h2⟩) <;> rcases h with h | ⟨h, h3⟩ <;> simp_all

/-- A RECORD window's place lies in the slot that holds the window (R12). -/
theorem recordAt_place {t : Vector Window 8} {n : Nat} {k : Slot} {w : RecordWindow} {i p : Nat}
    (h : placeOf t n = .record k w i p) : recordAt t k = some w := by
  unfold placeOf at h
  split at h
  · cases h
  · split at h <;> cases h
    simp [recordAt, *]

/-! ## One tag event, and two -/

theorem tagForm_tagEvent (e : TagEvent) (i : Nat) (h : TagForm s) : TagForm (tagEvent e i s) := setTag_wf _ _ _ h

theorem tagAt_tagEvent_same (e : TagEvent) (i : Nat) (h : TagForm s) :
    tagAt (tagEvent e i s).rts i = tagAfter e (tagAt s.rts i) := tagAt_setTag_same _ _ _ h

theorem tagAt_tagEvent_other (e : TagEvent) {i j : Nat} (h : TagForm s) (hj : j ≠ i) :
    tagAt (tagEvent e i s).rts j = tagAt s.rts j := tagAt_setTag_other _ _ _ _ h hj

/-! ## The restart of a readout (R41, R63) -/

section
variable {k : Slot} {i : Nat}

/-- No readout of the record reads: a structural capture restarts none. -/
theorem restartReadout_idle
    (h : ∀ x ∈ s.disp.inFlight, x.item = .record k i → stillReading s.disp x = false) : restartReadout k i s = s := by
  have hn : (s.disp.inFlight.find? fun e => decide (e.item = .record k i) && stillReading s.disp e) = none := by
    rw [List.find?_eq_none]
    intro x hx
    by_cases hi : x.item = .record k i
    · simp [hi, h x hx hi]
    · simp [hi]
  unfold restartReadout
  rw [hn]

variable {x : InFlight} {r : Fin 4} {ro : Readout}

/-- The readout of the record that still reads restarts while its count is below 3. -/
theorem restartReadout_reading {w : RecordWindow}
    (h : (s.disp.inFlight.find? fun e => decide (e.item = .record k i) && stillReading s.disp e) = some x)
    (hr : x.readout = some r) (ho : s.disp.readouts[r] = some ro) (hw : recordAt s.windows k = some w) :
    restartReadout k i s =
      if ro.restarts < 3 then
        tagEvent .readoutRestart (w.tagBase + i)
          (s.onDisp (setReadout r (some { ro with words := [], restarts := ro.restarts + 1 })))
      else s := by
  have hro : readoutOf s.disp x = some ro := by simp only [readoutOf, hr, ho]
  have hw' : recordAt (s.onDisp (setReadout r (some { ro with words := [], restarts := ro.restarts + 1 }))).windows k =
    some w := hw
  unfold restartReadout
  simp only [h, hr, hro, recordEvent, hw']

end

/-- A restart changes the tags and the readouts alone. -/
theorem restartReadout_spec (k : Slot) (i : Nat) (s : State) :
    ∃ x d, restartReadout k i s = { s with rts := { s.rts with tags := x }, disp := d } := by
  unfold restartReadout
  split
  · exact ⟨s.rts.tags, s.disp, rfl⟩
  · split
    · split
      · obtain ⟨x, hx⟩ := recordEvent_tags .readoutRestart k i (s.onDisp _)
        exact ⟨x, _, hx⟩
      · exact ⟨s.rts.tags, s.disp, rfl⟩
    · exact ⟨s.rts.tags, s.disp, rfl⟩

/-- A capture changes the tags and the readouts alone (R22). -/
theorem capture_spec (k : Slot) (w : RecordWindow) (i p : Nat) (s : State) :
    ∃ x d, capture k w i p s = { s with rts := { s.rts with tags := x }, disp := d } := by
  unfold capture
  split
  · exact ⟨_, s.disp, rfl⟩
  · obtain ⟨x, d, h⟩ := restartReadout_spec k i (tagEvent .structuralCapture (w.tagBase + i) s)
    exact ⟨x, d, h⟩

/-- A capture moves no tag but the record's own (R37). -/
theorem tagAt_capture_other {k : Slot} {w : RecordWindow} {i p n : Nat} (hk : recordAt s.windows k = some w)
    (h : TagForm s) (hn : n ≠ w.tagBase + i) : tagAt (capture k w i p s).rts n = tagAt s.rts n := by
  unfold capture
  split
  · exact tagAt_tagEvent_other _ h hn
  · have h1 := tagForm_tagEvent .structuralCapture (w.tagBase + i) h
    have h2 := tagAt_tagEvent_other .structuralCapture h hn
    generalize hu : tagEvent .structuralCapture (w.tagBase + i) s = u at h1 h2
    have hk' : recordAt u.windows k = some w := by rw [← hu]; exact hk
    rw [← h2]
    unfold restartReadout
    split
    · rfl
    · split
      · split
        · unfold recordEvent
          simp only [State.onDisp_windows, hk']
          exact tagAt_tagEvent_other .readoutRestart (s := u.onDisp _) h1 hn
        · rfl
      · rfl

/-! ## Writes into the windows -/

section
variable {addr : Addr} {data : DWord} {check e : Byte} {k : Slot}

/-- The decode of a write into a RECORD window (R22 to R24). -/
theorem decodeAccess_record {w : RecordWindow} {i p : Nat} (ha : addr.toNat < Config.statusBase)
    (hp : placeOf s.windows addr.toNat = .record k w i p) :
    decodeAccess ⟨true, addr, data, check, e⟩ s = recordWrite k w i p e s := by
  have hr := regionOf_record ha hp
  unfold decodeAccess
  simp only [hr, if_true]

/-- The decode of a write into a JOURNAL window (R23 to R26). -/
theorem decodeAccess_journal {w : JournalWindow} {f : Nat} (ha : addr.toNat < Config.statusBase)
    (hp : placeOf s.windows addr.toNat = .journal k w f) :
    decodeAccess ⟨true, addr, data, check, e⟩ s = journalWrite k f ⟨true, addr, data, check, e⟩ s := by
  have hr := regionOf_journal ha hp
  unfold decodeAccess
  simp only [hr, if_true]

theorem recordWrite_suppressed (w : RecordWindow) (i p : Nat) (h : suppresses s.rc = true) :
    recordWrite k w i p e s = (.suppressed, countSuppressed s) := if_pos h

theorem recordWrite_captured (w : RecordWindow) (i p : Nat) (h : captures s.rc = true) (he : e ≠ 0) :
    recordWrite k w i p e s = (.forwarded, capture k w i p s) := by
  unfold recordWrite
  rw [if_neg (by simp [captures_not_suppresses h]), if_pos ⟨h, he⟩]

theorem recordWrite_plain (w : RecordWindow) (i p : Nat) (h : suppresses s.rc = false) (hc : captures s.rc = false ∨ e = 0) :
    recordWrite k w i p e s = (.forwarded, s) := by
  rcases hc with hc | hc <;> simp [recordWrite, h, hc]

theorem journalWrite_suppressed (f : Nat) (a : Access) (h : suppresses s.rc = true) :
    journalWrite k f a s = (.suppressed, countSuppressed s) := if_pos h

theorem journalWrite_queued {f : Nat} {a : Access} (h : captures s.rc = true) (he : a.enables ≠ 0)
    (hq : queuesWrites s.journals.states[k] = true) (hl : s.journals.queue.length < 128) :
    journalWrite k f a s = (.forwarded, appendEntry (wordEntry k f a) s) := by
  have hr : journalRoomLeft s = true := decide_eq_true hl
  unfold journalWrite
  rw [if_neg (by simp [captures_not_suppresses h]), if_pos ⟨h, he, hq⟩, if_pos hr]

theorem journalWrite_stalled {f : Nat} {a : Access} (h : captures s.rc = true) (he : a.enables ≠ 0)
    (hq : queuesWrites s.journals.states[k] = true) (hl : 128 ≤ s.journals.queue.length) :
    journalWrite k f a s = (.held (.stall a 0), s) := by
  have hr : ¬ journalRoomLeft s = true := by
    simp only [journalRoomLeft, decide_eq_true_eq, Nat.not_lt]
    exact hl
  unfold journalWrite
  rw [if_neg (by simp [captures_not_suppresses h]), if_pos ⟨h, he, hq⟩, if_neg hr]

theorem journalWrite_plain {f : Nat} {a : Access} (h : suppresses s.rc = false)
    (hc : captures s.rc = false ∨ a.enables = 0 ∨ queuesWrites s.journals.states[k] = false) :
    journalWrite k f a s = (.forwarded, s) := by
  have hn : ¬ (captures s.rc = true ∧ a.enables ≠ 0 ∧ queuesWrites s.journals.states[k] = true) := by
    rintro ⟨h1, h2, h3⟩
    rcases hc with hc | hc | hc
    · rw [h1] at hc; cases hc
    · exact h2 hc
    · rw [h3] at hc; cases hc
  unfold journalWrite
  rw [if_neg (by simp [h]), if_neg hn]

end

/-- A suppressed write leaves the memory, and counts (R23). -/
theorem present_counted {a : Access} (hb : BusOpen s) (h : decodeAccess a s = (.suppressed, countSuppressed s)) :
    (present a s).unreported =
      ({ s with bpt := { s.bpt with suppressed := saturatingInc s.bpt.suppressed } } : State).unreported := by
  rw [present_suppressed hb h, close_unreported]
  rfl

/-- A held access: nothing but the hold (R26, R28). -/
theorem present_held {a : Access} {x : Held} (hb : BusOpen s) (h : decodeAccess a s = (.held x, s)) :
    (present a s).unreported = ({ s with bpt := { s.bpt with held := x } } : State).unreported := by
  rw [present_open hb, takeAccess_held h]

/-! ## The reads -/

/-- The decode of a read of a window (R24, R28). -/
theorem decodeAccess_read {addr : Addr} (ha : addr.toNat < Config.statusBase)
    (hp : placeOf s.windows addr.toNat ≠ .outside) :
    decodeAccess ⟨false, addr, 0, 0, 0⟩ s =
      if applies s.rc.role = true ∧ covered s addr = true then (.held (.read addr), s) else (.forwarded, s) := by
  rcases h : placeOf s.windows addr.toNat with _ | ⟨k, w, i, p⟩ | ⟨k, w, f⟩
  · exact absurd h hp
  · have hr := regionOf_record ha h
    unfold decodeAccess
    simp [hr]
  · have hr := regionOf_journal ha h
    unfold decodeAccess
    simp [hr]

/-- The entries that cover a word: the table of R28. -/
theorem coversAddr_iff (t : Vector Window 8) (n : Nat) (b : SeqBody) :
    coversAddr t n b = true ↔
      (∃ k w i p j, placeOf t n = .record k w i p ∧ j.toNat = i ∧
        ((∃ ws, b = .record k j ws) ∨ b = .tombstone k j ∨ b = .discard k j)) ∨
      (∃ k w o j, placeOf t n = .journal k w o ∧
        ((j.toNat = o ∧ ∃ m d, b = .journalWord k j m d) ∨
          (j.toNat ≤ o ∧ o < j.toNat + 4 ∧ ∃ l w0 w1 w2 w3, b = .journalBlock k j l w0 w1 w2 w3))) := by
  unfold coversAddr
  rcases placeOf t n with _ | ⟨k, w, i, p⟩ | ⟨k, w, o⟩
  · simp
  · cases b <;> simp <;> grind
  · cases b <;> simp <;> grind

/-! ## An access forwarded behind a hold -/

/-- A write forwarded: driven now, or waiting for its memory cycle while BCLK does not run (R16, R32). -/
theorem forward_write {a : Access} (hw : a.write = true) (hn : s.bpt.waitCount < 32) :
    (forward a s).unreported =
      (if s.rc.bclkQuiet = none then { s with mem := memDrive s.mem a }
       else { s with bpt := { s.bpt with held := .port a } } : State).unreported := by
  split
  · rename_i hc
    rw [forward_granted hc hn, countUpstream_unreported, driveAccess_unreported, if_pos hw]
    rfl
  · rename_i hc
    have hr : clockRuns s = false := by simpa [clockRuns, Option.isSome_iff_ne_none] using hc
    simp only [forward, hr]
    rfl

/-- A write forwarded behind the close that ends its hold (R26). -/
theorem forward_closed {a : Access} {b : State} (hw : a.write = true) (hn : s.bpt.waitCount < 32) :
    (forward a (close b s)).unreported =
      (if s.rc.bclkQuiet = none then { s with mem := memDrive s.mem a }
       else { s with bpt := { s.bpt with held := .port a } } : State).unreported := by
  rw [forward_write hw (close_waitCount_lt b s hn), close_rc]
  obtain ⟨q, o, n, h⟩ := close_spec b s
  rw [h]
  split <;> rfl

/-- A read forwarded while BCLK runs (R16). -/
theorem forward_read {a : Access} (hw : a.write = false) (hc : s.rc.bclkQuiet = none) (hn : s.bpt.waitCount < 32) :
    (forward a s).unreported =
      ({ s with bpt := { s.bpt with readData := memRead s.mem a.addr } } : State).unreported := by
  rw [forward_granted hc hn, countUpstream_unreported, driveAccess_unreported, if_neg (by simp [hw])]
  rfl

theorem forward_stopped {a : Access} (hc : s.rc.bclkQuiet ≠ none) :
    forward a s = s.onBpt fun b => { b with held := .port a } := by
  have hr : clockRuns s = false := by simpa [clockRuns, Option.isSome_iff_ne_none] using hc
  simp [forward, hr]

/-! ## Room, and expiry -/

/-- Room for the stalled write: a place in the Journal Queue while it is captured and queued (R72). -/
theorem stallHasRoom_iff {a : Access} {n : Nat} {k : Slot} {w : JournalWindow} {f : Nat}
    (hh : s.bpt.held = .stall a n) (hr : regionOf s.windows a.addr = .journal k w f) (hc : captures s.rc = true)
    (hq : queuesWrites s.journals.states[k] = true) : stallHasRoom s = decide (s.journals.queue.length < 128) := by
  unfold stallHasRoom
  simp only [hh, hr, hc, hq, Bool.true_and]
  rfl

theorem stallRoom_noRoom (h : stallHasRoom s = false) : stallRoom s = s := by
  unfold stallRoom
  split
  · split
    · simp [h]
    · rfl
  · rfl

/-- Once room has ended a stall, none is left for room to end (R26). -/
theorem stallRoom_twice (s : State) : stallRoom (stallRoom s) = stallRoom s := by
  refine stallRoom_noRoom ?_
  by_cases h : stallHasRoom s = true
  · have hs : ∀ a n, (stallRoom s).bpt.held ≠ .stall a n := by
      have h1 := h
      unfold stallHasRoom at h1
      split at h1
      · rename_i hh
        split at h1
        · rename_i hr
          unfold stallRoom
          simp only [hh, hr, h, if_true]
          exact close_not_stalled (forward_not_stalled _ (by rw [close_held]; rfl))
        · cases h1
      · cases h1
    unfold stallHasRoom
    split
    · exact absurd ‹_› (hs _ _)
    · rfl
  · rw [stallRoom_noRoom (by simpa using h)]
    simpa using h

/-- An event of R27 runs from the state in which room has ended the stall (log entry 24). -/
theorem takeEvent_stallRoom (f : State → State) (s : State) : takeEvent f (stallRoom s) = takeEvent f s := by
  simp only [takeEvent, stallRoom_twice]

end Sys2Proof.Machine

/-- Settles O10: the decode by role and journal state, and what becomes of the access. -/
theorem journalWriteByRole : Obligations.JournalWriteByRole := by
  intro addr data check e s k w f ha hp hb
  have hd : decodeAccess ⟨true, addr, data, check, e⟩ s = _ := decodeAccess_journal ha hp
  have hsup (h : suppresses s.rc = true) := present_counted hb.1 (hd.trans (journalWrite_suppressed _ _ h))
  refine ⟨_, rfl, hsup, fun hc he hq hl => ?_, fun hc he hq hl => ?_, fun hs hc => ?_, fun hm b hb' => ?_⟩
  · exact present_write hb rfl (hd.trans (journalWrite_queued hc he hq hl)) hb.1.2.2 hb.2
  · exact present_held hb.1 (hd.trans (journalWrite_stalled hc he hq hl))
  · exact present_plain hb rfl (hd.trans (journalWrite_plain hs hc))
  · by_cases hs : suppresses s.rc = true
    · exact congrArg (memRead · b) ((mem_of_unreported (hsup hs)).trans rfl)
    · have hne : b ≠ addr := hb'.resolve_right hs
      have hs : suppresses s.rc = false := by simpa using hs
      have hdrive : memRead (memDrive s.mem ⟨true, addr, data, check, e⟩) b = memRead s.mem b :=
        memRead_drive_other hm hne
      by_cases hx : captures s.rc = true ∧ e ≠ 0 ∧ queuesWrites s.journals.states[k] = true
      · obtain ⟨hc, he, hq⟩ := hx
        by_cases hl : s.journals.queue.length < 128
        · exact (congrArg (memRead · b)
            ((mem_of_unreported (present_write hb rfl (hd.trans (journalWrite_queued hc he hq hl)) hb.1.2.2 hb.2)).trans
              rfl)).trans hdrive
        · exact congrArg (memRead · b) ((mem_of_unreported
            (present_held hb.1 (hd.trans (journalWrite_stalled hc he hq (Nat.le_of_not_lt hl))))).trans rfl)
      · have hx : captures s.rc = false ∨ e = 0 ∨ queuesWrites s.journals.states[k] = false := by
          by_contra hn
          simp only [not_or, Bool.not_eq_false] at hn
          exact hx hn
        exact (congrArg (memRead · b)
          ((mem_of_unreported (present_plain hb rfl (hd.trans (journalWrite_plain hs hx)))).trans rfl)).trans hdrive

/-- Settles O11: the decode of a read, the table of R28, and the slot of a released read. -/
theorem readsHeldAndReleased : Obligations.ReadsHeldAndReleased := by
  refine ⟨fun addr s ha hp hb => ⟨_, rfl, ?_⟩, fun addr s => ?_, fun addr s => ?_⟩
  · have hd := decodeAccess_read (s := s) ha hp
    split at hd
    · rename_i hc
      rw [if_pos hc]
      exact present_held hb.1 hd
    · rename_i hc
      rw [if_neg hc]
      exact present_read hb rfl hd
  · simp only [covered, List.any_eq_true, coversAddr_iff]
  · have hclose : ∀ u : State, releaseRead s = u → (close s (releaseRead s)).unreported = u.unreported := by
      rintro u rfl
      exact close_unreported ..
    refine ⟨fun hh hc => ⟨_, rfl, hclose s ?_⟩, fun hh hc hq => ⟨_, rfl, ?_⟩, fun hh hq => ⟨_, rfl, hclose s ?_⟩,
      fun hh hq hn => ⟨_, rfl, ?_⟩⟩
    · simp [releaseRead, hh, hc]
    · have hf : releaseRead s = forward ⟨false, addr, 0, 0, 0⟩ (endHold s) := by simp [releaseRead, hh, hc]
      rw [hclose _ (hf.trans (forward_stopped hq))]
      rfl
    · have hr : clockRuns s = false := by simpa [clockRuns, Option.isSome_iff_ne_none] using hq
      simp [releaseRead, hh, hr]
    · have hf : releaseRead s = forward ⟨false, addr, 0, 0, 0⟩ (endHold s) := by
        have hr : clockRuns s = true := by simp [clockRuns, hq]
        rcases hh with hh | ⟨hh, hc⟩
        · simp [releaseRead, hh, hr]
        · simp [releaseRead, hh, hc]
      rw [hclose _ hf]
      exact (forward_read (s := endHold s) rfl hq hn).trans rfl

/-- Settles O14: room and expiry by the place in the Journal Queue, and the events of R27 by what the room leaves. -/
theorem stallEnds : Obligations.StallEnds := by
  refine ⟨fun c s t ht hc => ?_, fun a n s k w f ha hp hw hh hn hc hq => ?_⟩
  · have ht : t = stallRoom s := by
      injection ht with ht
      exact ht.symm
    subst ht
    rcases hc with ⟨h, rfl⟩ | ⟨h, b, rfl⟩ | ⟨q, rfl⟩ | ⟨l, b, rfl⟩ | ⟨v, f, g, rfl⟩ | ⟨v, f, g, rfl⟩ | ⟨b, rfl⟩ | rfl | rfl |
        rfl | rfl | rfl | rfl | rfl <;>
      exact congrArg Host.Outcome.next (takeEvent_stallRoom _ s).symm
  · have hr := regionOf_journal ha hp
    have hroom := stallHasRoom_iff hh hr hc hq
    refine ⟨fun hl => ?_, fun hl => ?_⟩
    · have hroom : stallHasRoom s = true := by simpa [hl] using hroom
      refine ⟨⟨_, rfl, ?_⟩, congrArg Host.Outcome.next ?_⟩
      · have e : stallRoom s = close (close s (appendEntry (wordEntry k f a) (endHold s)))
            (forward a (close s (appendEntry (wordEntry k f a) (endHold s)))) := by
          unfold stallRoom
          simp only [hh, hr, hroom, if_true]
        rw [e, close_unreported]
        refine (forward_closed hw (by exact hn)).trans ?_
        by_cases hb : s.rc.bclkQuiet = none
        · exact (congrArg State.unreported (if_pos hb)).trans (by simp only [hb, if_true]; rfl)
        · exact (congrArg State.unreported (if_neg hb)).trans (by simp only [hb, if_false]; rfl)
      · unfold stallExpiry
        simp only [hh, hroom, if_true]
    · have hroom : stallHasRoom s = false := by simpa [Nat.not_lt.2 hl] using hroom
      refine ⟨congrArg Host.Outcome.next (stallRoom_noRoom hroom), _, rfl, ?_⟩
      have e : stallExpiry s = close (close s (enterDesync k (endHold s))) (forward a (close s (enterDesync k (endHold s)))) := by
        unfold stallExpiry stallSlot
        simp only [hh, hroom, slotOf_journal hr, Bool.false_eq_true, if_false]
      have he : enterDesync k (endHold s) = raise .journalDesync (setJournalState k (some .desync) (endHold s)) :=
        if_pos hq
      rw [e, close_unreported, he]
      refine (forward_closed hw (by exact hn)).trans ?_
      by_cases hb : s.rc.bclkQuiet = none
      · exact (congrArg State.unreported (if_pos hb)).trans (by simp only [hb, if_true]; rfl)
      · exact (congrArg State.unreported (if_neg hb)).trans (by simp only [hb, if_false]; rfl)
end

section
open Sys2Proof Sys2Proof.Machine
/-! The write into a RECORD window, by the role at its decode. -/

namespace Sys2Proof.Machine

/-- A write into a RECORD window of a part that does not suppress it: a capture where the role and the byte enables ask for
one, and the word in memory (R22, R24). -/
theorem present_recordWrite {addr : Addr} {data : DWord} {check e : Byte} {s : State} {k : Slot} {w : RecordWindow}
    {i p : Nat} (ha : addr.toNat < Config.statusBase) (hp : placeOf s.windows addr.toNat = .record k w i p)
    (hb : BusFree s) (hs : suppresses s.rc = false) :
    (present ⟨true, addr, data, check, e⟩ s).unreported =
      ({ (if captures s.rc = true ∧ e ≠ 0 then capture k w i p s else s) with
          mem := memDrive s.mem ⟨true, addr, data, check, e⟩ } : State).unreported := by
  have hd : decodeAccess ⟨true, addr, data, check, e⟩ s = _ := decodeAccess_record ha hp
  by_cases hc : captures s.rc = true ∧ e ≠ 0
  · rw [if_pos hc]
    rw [recordWrite_captured w i p hc.1 hc.2] at hd
    obtain ⟨x, d, h⟩ := capture_spec k w i p s
    rw [h] at hd ⊢
    exact present_write hb rfl hd hb.1.2.2 hb.2
  · rw [if_neg hc]
    have hc : captures s.rc = false ∨ e = 0 := by
      by_contra hn
      simp only [not_or, Bool.not_eq_false] at hn
      exact hc hn
    exact present_plain hb rfl (hd.trans (recordWrite_plain w i p hs hc))

end Sys2Proof.Machine

/-- Settles O9: the decode by role, the capture's effect on the tag and on the readout, and the memory cycle. -/
theorem recordWriteByRole : Obligations.RecordWriteByRole := by
  intro addr data check e s k w i p ha hp hb
  have hk := recordAt_place hp
  have hsup (h : suppresses s.rc = true) : (present ⟨true, addr, data, check, e⟩ s).unreported = _ :=
    present_counted hb.1 ((decodeAccess_record ha hp).trans (recordWrite_suppressed w i p h))
  have hwrite := present_recordWrite (data := data) (check := check) (e := e) ha hp hb
  have hcap (hc : captures s.rc = true) (he : e ≠ 0) :
      (present ⟨true, addr, data, check, e⟩ s).unreported =
        ({ capture k w i p s with mem := memDrive s.mem ⟨true, addr, data, check, e⟩ } : State).unreported := by
    rw [hwrite (captures_not_suppresses hc), if_pos ⟨hc, he⟩]
  have hplain (hs : suppresses s.rc = false) (hc : captures s.rc = false ∨ e = 0) :
      (present ⟨true, addr, data, check, e⟩ s).unreported =
        ({ s with mem := memDrive s.mem ⟨true, addr, data, check, e⟩ } : State).unreported := by
    rw [hwrite hs, if_neg (by rintro ⟨h1, h2⟩; rcases hc with hc | hc <;> simp_all)]
  have hmem (hs : suppresses s.rc = false) :
      (present ⟨true, addr, data, check, e⟩ s).mem = memDrive s.mem ⟨true, addr, data, check, e⟩ :=
    (mem_of_unreported (hwrite hs)).trans rfl
  refine ⟨_, rfl, hsup, hplain, fun hc he hv => ?_, fun hc he hv hn => ?_, fun hc he hv x r ro hx hr ho => ?_,
    fun hf n hn => ?_, fun hm b hb' => ?_, fun hm hs he => ?_⟩
  · have h : capture k w i p s = tagEvent .volatileCapture (w.tagBase + i) s := by simp [capture, hv]
    rw [hcap hc he, h]
    rfl
  · have h : capture k w i p s = tagEvent .structuralCapture (w.tagBase + i) s := by
      simp only [capture, hv]
      exact restartReadout_idle hn
    rw [hcap hc he, h]
    rfl
  · have h : capture k w i p s = _ :=
      (show capture k w i p s = restartReadout k i (tagEvent .structuralCapture (w.tagBase + i) s) by
        simp [capture, hv]).trans
        (restartReadout_reading (s := tagEvent .structuralCapture (w.tagBase + i) s) hx hr ho hk)
    obtain ⟨-, hrts, -, hdisp, -⟩ := unreported_fields (hcap hc he)
    rw [h] at hrts hdisp
    refine ⟨fun hl hf => ?_, fun hl hf => ?_⟩
    · rw [if_pos hl] at hrts hdisp
      refine ⟨hdisp, ?_⟩
      rw [hrts]
      have h1 := tagForm_tagEvent .structuralCapture (w.tagBase + i) hf
      have h2 := tagAt_tagEvent_same .structuralCapture (w.tagBase + i) hf
      rw [← h2]
      exact tagAt_tagEvent_same .readoutRestart (w.tagBase + i) (s := State.onDisp _ _) h1
    · rw [if_neg (Nat.not_lt.2 hl)] at hrts hdisp
      refine ⟨hdisp, ?_⟩
      rw [hrts]
      exact tagAt_tagEvent_same .structuralCapture (w.tagBase + i) hf
  · rcases hs : suppresses s.rc with _ | _
    · obtain ⟨-, hrts, -⟩ := unreported_fields (hwrite hs)
      rw [hrts]
      by_cases hc : captures s.rc = true ∧ e ≠ 0
      · rw [if_pos hc]
        exact tagAt_capture_other hk hf hn
      · rw [if_neg hc]
    · obtain ⟨-, hrts, -⟩ := unreported_fields (hsup hs)
      rw [hrts]
  · rcases hs : suppresses s.rc with _ | _
    · rw [hmem hs]
      exact memRead_drive_other hm (hb'.resolve_right (by simp [hs]))
    · exact congrArg (memRead · b) ((mem_of_unreported (hsup hs)).trans rfl)
  · rw [hmem hs]
    exact memRead_drive_full hm he
end

section
open Sys2Proof Sys2Proof.Machine
/-! What no effect of a role, of the link or of a command touches: the SSRAM, the bus path but for its hold, and BCLK. -/

namespace Sys2Proof.Machine

/-- The stall, if the current access is stalled (R26). -/
def Held.stalled : Held → Option (Access × Nat)
  | .stall a n => Option.some (a, n)
  | _ => Option.none

theorem Held.stalled_eq_some {h : Held} {a : Access} {n : Nat} : h.stalled = some (a, n) ↔ h = .stall a n := by
  cases h <;> simp [Held.stalled]

/-- What stands outside every effect but an access and a slot of the memory port. -/
def State.outer (s : State) : Memory × Bpt × Option (Access × Nat) × Option Nat :=
  (s.mem, { s.bpt with held := .none }, s.bpt.held.stalled, s.rc.bclkQuiet)

section
variable {s t : State}

theorem mem_of_outer (h : t.outer = s.outer) : t.mem = s.mem := congrArg (·.1) h
theorem bclkQuiet_of_outer (h : t.outer = s.outer) : t.rc.bclkQuiet = s.rc.bclkQuiet := congrArg (·.2.2.2) h
theorem waitCount_of_outer (h : t.outer = s.outer) : t.bpt.waitCount = s.bpt.waitCount := congrArg (·.2.1.waitCount) h
theorem suppressed_of_outer (h : t.outer = s.outer) : t.bpt.suppressed = s.bpt.suppressed := congrArg (·.2.1.suppressed) h
theorem stalled_of_outer (h : t.outer = s.outer) {a : Access} {n : Nat} :
    t.bpt.held = .stall a n ↔ s.bpt.held = .stall a n := by
  rw [← Held.stalled_eq_some, ← Held.stalled_eq_some, show t.bpt.held.stalled = s.bpt.held.stalled from congrArg (·.2.2.1) h]

end

section
variable (s : State)

@[simp] theorem State.onRts_outer (f : Rts → Rts) : (s.onRts f).outer = s.outer := rfl
@[simp] theorem State.onJournals_outer (f : Journals → Journals) : (s.onJournals f).outer = s.outer := rfl
@[simp] theorem State.onDisp_outer (f : Dispatcher → Dispatcher) : (s.onDisp f).outer = s.outer := rfl
@[simp] theorem State.onLink_outer (f : Link → Link) : (s.onLink f).outer = s.outer := rfl
@[simp] theorem State.onApply_outer (f : ApplyEngine → ApplyEngine) : (s.onApply f).outer = s.outer := rfl
@[simp] theorem State.onPass_outer (f : PassEngine → PassEngine) : (s.onPass f).outer = s.outer := rfl
@[simp] theorem State.onCsu_outer (f : Csu → Csu) : (s.onCsu f).outer = s.outer := rfl
@[simp] theorem State.onWindows_outer (f : Vector Window 8 → Vector Window 8) : (s.onWindows f).outer = s.outer := rfl

/-- Either branch. -/
@[simp] theorem State.ite_outer (p : Prop) [Decidable p] (t : State) :
    (if p then s else t).outer = if p then s.outer else t.outer := by split <;> rfl

@[simp] theorem raise_outer (n : Notice) : (raise n s).outer = s.outer := rfl
@[simp] theorem formResult_outer (r : ResultWord) : (formResult r s).outer = s.outer := rfl
@[simp] theorem intakeResult_outer (c : Byte) : (intakeResult c s).outer = s.outer := rfl
@[simp] theorem completeWith_outer (c : Byte) (r : ResultCode) (n : Nat) : (completeWith c r n s).outer = s.outer := rfl
@[simp] theorem endSwitchover_outer (r : ResultCode) : (endSwitchover r s).outer = s.outer := by
  unfold endSwitchover
  split <;> rfl
@[simp] theorem setRole_outer (r : Role) : (setRole r s).outer = s.outer := rfl
@[simp] theorem leaveHandoff_outer : (leaveHandoff s).outer = s.outer := rfl
@[simp] theorem adoptEpoch_outer : (adoptEpoch s).outer = s.outer := rfl
@[simp] theorem startLiveness_outer : (startLiveness s).outer = s.outer := rfl
@[simp] theorem withSync_outer (x : SyncState) : (s.onRc fun c => { c with sync := x }).outer = s.outer := rfl
@[simp] theorem handoffSweep_outer : (handoffSweep s).outer = s.outer := rfl
@[simp] theorem settleSeen_outer : (settleSeen s).outer = s.outer := by simp [settleSeen]
@[simp] theorem freeRead_outer (b : State) : (freeRead b s).outer = s.outer := by
  unfold freeRead
  split
  · rename_i a h
    split
    · simp [State.outer, State.onBpt, h, Held.stalled]
    · rfl
  · rfl
@[simp] theorem emptyApply_outer : (emptyApply s).outer = s.outer := by simp [emptyApply]
@[simp] theorem clearReplication_outer : (clearReplication s).outer = s.outer := by
  obtain ⟨v, p, h, -⟩ := clearReplication_spec s
  rw [h]
  rfl
@[simp] theorem streamEnded_outer : (stopRefresh (abortSync (emptyGoingBack s))).outer = s.outer := by
  obtain ⟨x, v, p, h, -⟩ := streamEnded_spec s
  rw [h]
  rfl
@[simp] theorem restartSync_outer : (restartSync s).outer = s.outer := by simp [restartSync, copyInStep, clearMarks]
@[simp] theorem armSyncBegin_outer : (armSyncBegin s).outer = s.outer := by simp [armSyncBegin]
@[simp] theorem startSync_outer : (startSync s).outer = s.outer := by simp [startSync]
@[simp] theorem resyncNow_outer : (resyncNow s).outer = s.outer := by
  unfold resyncNow
  split <;> simp
@[simp] theorem pairingDecision_outer : (pairingDecision s).outer = s.outer := by simp [pairingDecision, beginRefresh]
@[simp] theorem decideIfPaired_outer : (decideIfPaired s).outer = s.outer := by simp [decideIfPaired]
@[simp] theorem promote_outer : (promote s).outer = s.outer := by
  simp only [promote, decideIfPaired_outer, clearReplication_outer, setRole_outer]
  rfl
@[simp] theorem promoteIfDrained_outer : (promoteIfDrained s).outer = s.outer := by simp [promoteIfDrained]
@[simp] theorem takeOverNow_outer : (takeOverNow s).outer = s.outer := by simp [takeOverNow]
@[simp] theorem judgeLost_outer : (judgeLost s).outer = s.outer := by simp [judgeLost]
@[simp] theorem judgeNoActive_outer (b : State) : (judgeNoActive b s).outer = s.outer := by simp [judgeNoActive]
@[simp] theorem judgeTakeover_outer (b : State) : (judgeTakeover b s).outer = s.outer := by simp [judgeTakeover]
@[simp] theorem demote_outer (x : SyncState) : (demote x s).outer = s.outer := by simp [demote]
@[simp] theorem handoffSucceeds_outer : (handoffSucceeds s).outer = s.outer := by
  simp only [handoffSucceeds, endSwitchover_outer, demote_outer]
  rfl
@[simp] theorem handoffReturns_outer (r : ResultCode) : (handoffReturns r s).outer = s.outer := by simp [handoffReturns]
@[simp] theorem judgeConverged_outer : (judgeConverged s).outer = s.outer := by
  unfold judgeConverged
  split <;> rfl
@[simp] theorem demoteDual_outer : (demoteDual s).outer = s.outer := by simp [demoteDual]
@[simp] theorem dualClaimDetected_outer : (dualClaimDetected s).outer = s.outer := by simp [dualClaimDetected]
@[simp] theorem enterReleased_outer : (enterReleased s).outer = s.outer := by simp [enterReleased]
@[simp] theorem releaseIfHeld_outer : (releaseIfHeld s).outer = s.outer := by simp [releaseIfHeld]

/-! ## The commands -/

@[simp] theorem enterTrain_outer : (enterTrain s).outer = s.outer := rfl
@[simp] theorem watching_outer : (s.onRc fun c => { c with busClock := .present }).outer = s.outer := rfl
@[simp] theorem startSupervision_outer : (startSupervision s).outer = s.outer := by simp [startSupervision]
@[simp] theorem startAs_outer (r : Role) : (startAs r s).outer = s.outer := by
  rw [startAs, startSupervision_outer]
  split <;> rfl
@[simp] theorem stopEffects_outer : (stopEffects s).outer = s.outer := by
  have h : ∀ u : State, ((setRole .init (leaveHandoff u)).onRc fun c =>
      { c with liveness := none, busClock := .notWatching }).outer = u.outer := fun _ => rfl
  unfold stopEffects
  rw [State.onDisp_outer, h, emptyApply_outer, clearReplication_outer]
  unfold stopLink
  split <;> rfl
@[simp] theorem commandStop_outer (c : Byte) : (commandStop c s).outer = s.outer := by simp [commandStop]

/-- No command touches the memory, the bus path or BCLK (R159). -/
theorem runCommand_outer (c : Command) (w1 w2 w3 : DWord) : (runCommand c w1 w2 w3 s).outer = s.outer := by
  cases c with
  | defineWindow => simp only [runCommand, commandDefine]; split <;> simp
  | clearWindow => simp only [runCommand, commandClear]; (repeat' split) <;> simp
  | setTiming => simp only [runCommand, commandTiming]; (repeat' split) <;> simp
  | start => simp only [runCommand, commandStart]; (repeat' split) <;> simp
  | stop => simp [runCommand]
  | switchover =>
    have h (n : Nat) : ((setRole .handoff s).onRc fun c =>
        { c with closing := false, handoff := some 0, handoffMs := n }).outer = s.outer := rfl
    simp [runCommand, commandSwitchover, h]
  | takeOver => simp [runCommand, commandTakeOver]
  | release => simp [runCommand, commandRelease]
  | resume => simp [runCommand, commandResume]
  | resync => simp [runCommand, commandResync]
  | queryRecord => simp only [runCommand, commandQuery]; (repeat' split) <;> simp

theorem commandTrigger_outer (w0 w1 w2 w3 : DWord) : (commandTrigger w0 w1 w2 w3 s).outer = s.outer := by
  unfold commandTrigger takeTrigger abortAndStop
  split
  · split
    · rw [runCommand_outer, intakeResult_outer]
    · simp
  · simp

end

end Sys2Proof.Machine

/-- Settles O7: the decode of word 0 delivers the command event, which touches neither memory nor bus; the other words are
the same writes. -/
theorem controlEventsDelivered : Obligations.ControlEventsDelivered := by
  intro data check e s
  refine ⟨fun hb he => ?_, rfl, rfl, rfl⟩
  have hd : controlDecode 0 data e s =
      commandTrigger (mergeBytes s.bpt.shadow[0] data e) s.bpt.shadow[1] s.bpt.shadow[2] s.bpt.shadow[3]
        { s with bpt := { s.bpt with shadow := s.bpt.shadow.set 0 (mergeBytes s.bpt.shadow[0] data e) } } := by
    rw [controlDecode, if_neg he]
    simp only [controlEvent, shadowWord_merged]
    rw [shadowWord_kept (by decide), shadowWord_kept (by decide), shadowWord_kept (by decide)]
    rfl
  have hx := decodeAccess_control 0 data check e s
  rw [show (0 : BitVec 6).toNat = 0 from rfl, hd] at hx
  have ho := commandTrigger_outer
    { s with bpt := { s.bpt with shadow := s.bpt.shadow.set 0 (mergeBytes s.bpt.shadow[0] data e) } }
    (mergeBytes s.bpt.shadow[0] data e) s.bpt.shadow[1] s.bpt.shadow[2] s.bpt.shadow[3]
  refine ⟨_, rfl, ?_⟩
  refine (present_write hb rfl hx ((bclkQuiet_of_outer ho).trans hb.1.2.2) ?_).trans ?_
  · rw [waitCount_of_outer ho]
    exact hb.2
  · rw [mem_of_outer ho]
end

section
open Sys2Proof Sys2Proof.Machine

/-! ## The check-bit code (R33, R34)

Syndrome and overall parity are linear over XOR, so an error's syndrome and parity do not depend on the word it
falls on: the syndrome of a flipped data bit is its code position, that of a flipped check line a power of two
or, for line 7, zero. -/

namespace Sys2Proof.Machine

theorem foldl_xor_xor (f g : Nat → Bool) (l : List Nat) (p q : Bool) :
    l.foldl (fun p i => xor p (xor (f i) (g i))) (xor p q) =
      xor (l.foldl (fun p i => xor p (f i)) p) (l.foldl (fun p i => xor p (g i)) q) := by
  induction l generalizing p q with
  | nil => rfl
  | cons i l ih =>
    have regroup : xor (xor p q) (xor (f i) (g i)) = xor (xor p (f i)) (xor q (g i)) := by
      cases p <;> cases q <;> simp
    simp only [List.foldl_cons, regroup, ih]

theorem foldl_xor_single (f : Nat → Bool) (i n : Nat) :
    (List.range n).foldl (fun p k => xor p (decide (i = k) && f k)) false = (decide (i < n) && f i) := by
  induction n with
  | zero => simp
  | succ n ih =>
    rw [List.range_succ, List.foldl_append, ih]
    by_cases h : i = n
    · subst h; simp
    · have : i < n + 1 ↔ i < n := by omega
      simp [h, this]

theorem groupParity_xor (d e : DWord) (j : Nat) :
    groupParity (d ^^^ e) j = xor (groupParity d j) (groupParity e j) := by
  simp only [groupParity, ← foldl_xor_xor, BitVec.getLsbD_xor, Bool.and_xor_distrib_right]
  rfl

theorem dataParity_xor (d e : DWord) : dataParity (d ^^^ e) = xor (dataParity d) (dataParity e) := by
  simp only [dataParity, ← foldl_xor_xor, BitVec.getLsbD_xor]
  rfl

theorem getLsbD_hammingBits (d : DWord) {j : Nat} (hj : j < 7) :
    (hammingBits d).getLsbD j = groupParity d j := by
  rw [hammingBits, BitVec.getLsbD_ofBoolListLE]
  interval_cases j <;> simp only [List.getD_cons_zero, List.getD_cons_succ]

theorem eq_hammingBits_iff {d : DWord} {c : BitVec 7} :
    hammingBits d = c ↔ ∀ j, j < 7 → groupParity d j = c.getLsbD j := by
  refine ⟨fun h j hj => by rw [← h, getLsbD_hammingBits d hj], fun h => BitVec.eq_of_getLsbD_eq fun j hj => ?_⟩
  rw [getLsbD_hammingBits d hj, h j hj]

theorem hammingBits_xor (d e : DWord) : hammingBits (d ^^^ e) = hammingBits d ^^^ hammingBits e := by
  rw [eq_hammingBits_iff]
  intro j hj
  rw [groupParity_xor, BitVec.getLsbD_xor, getLsbD_hammingBits d hj, getLsbD_hammingBits e hj]

theorem parity7_xor (b c : BitVec 7) : parity7 (b ^^^ c) = xor (parity7 b) (parity7 c) := by
  have : Std.Commutative xor := ⟨Bool.xor_comm⟩
  simp only [parity7, BitVec.getLsbD_xor]
  ac_rfl

/-- The parity that check lines add to the data's (R34). -/
def lineParity (c : Byte) : Bool := xor (parity7 (c.setWidth 7)) (c.getLsbD 7)

theorem lineParity_xor (b c : Byte) : lineParity (b ^^^ c) = xor (lineParity b) (lineParity c) := by
  have : Std.Commutative xor := ⟨Bool.xor_comm⟩
  simp only [lineParity, BitVec.setWidth_xor, parity7_xor, BitVec.getLsbD_xor]
  ac_rfl

theorem setWidth_checkBits (d : DWord) : (checkBits d).setWidth 7 = hammingBits d := by
  rw [checkBits, BitVec.setWidth_append_eq_right]

theorem lineParity_checkBits (d : DWord) : lineParity (checkBits d) = dataParity d := by
  have top : (checkBits d).getLsbD 7 = xor (dataParity d) (parity7 (hammingBits d)) := by
    rw [checkBits, BitVec.getLsbD_append]
    simp
  rw [lineParity, setWidth_checkBits, top, Bool.xor_comm, Bool.xor_assoc, Bool.xor_self, Bool.xor_false]

/-- The syndrome of a coded word with errors `e` in the data and `c` on the check lines. -/
theorem syndrome_errors (d e : DWord) (c : Byte) :
    syndrome ⟨d ^^^ e, checkBits d ^^^ c⟩ = hammingBits e ^^^ c.setWidth 7 := by
  simp only [syndrome, hammingBits_xor, BitVec.setWidth_xor, setWidth_checkBits]
  rw [BitVec.xor_comm (hammingBits d), BitVec.xor_assoc, ← BitVec.xor_assoc (hammingBits d), BitVec.xor_self,
    BitVec.zero_xor]

/-- The overall parity of a coded word with errors `e` in the data and `c` on the check lines. -/
theorem overallOdd_errors (d e : DWord) (c : Byte) :
    overallOdd ⟨d ^^^ e, checkBits d ^^^ c⟩ = xor (dataParity e) (lineParity c) := by
  change xor (dataParity (d ^^^ e)) (lineParity (checkBits d ^^^ c)) = _
  rw [dataParity_xor, lineParity_xor, lineParity_checkBits, Bool.xor_comm (dataParity d), Bool.xor_assoc,
    ← Bool.xor_assoc (dataParity d), Bool.xor_self, Bool.false_xor]

/-! ### One flipped bit -/

theorem groupParity_twoPow {i : Nat} (hi : i < 64) (j : Nat) :
    groupParity (BitVec.twoPow 64 i) j = (dataPosition i).testBit j := by
  simp only [groupParity, BitVec.getLsbD_twoPow, hi, decide_true, Bool.true_and]
  rw [foldl_xor_single]
  simp [hi]

theorem dataParity_twoPow {i : Nat} (hi : i < 64) : dataParity (BitVec.twoPow 64 i) = true := by
  have single := foldl_xor_single (fun _ => true) i 64
  simp only [Bool.and_true] at single
  simpa only [dataParity, BitVec.getLsbD_twoPow, hi, decide_true, Bool.true_and] using single

theorem dataPosition_lt {i : Nat} (hi : i < 64) : dataPosition i < 72 := by
  unfold dataPosition; split_ifs <;> omega

theorem dataPosition_injective {i j : Nat} (h : dataPosition i = dataPosition j) : i = j := by
  unfold dataPosition at h; split_ifs at h <;> omega

theorem dataPosition_ne_zero (i : Nat) : dataPosition i ≠ 0 := by
  unfold dataPosition; split_ifs <;> omega

/-- No data bit stands at a power of two: those positions are the check bits' (R180). -/
theorem dataPosition_ne_twoPow (i : Nat) {j : Nat} (hj : j < 7) : dataPosition i ≠ 2 ^ j := by
  unfold dataPosition
  interval_cases j <;> split_ifs <;> omega

theorem hammingBits_twoPow {i : Nat} (hi : i < 64) :
    hammingBits (BitVec.twoPow 64 i) = BitVec.ofNat 7 (dataPosition i) := by
  rw [eq_hammingBits_iff]
  intro j hj
  rw [groupParity_twoPow hi, BitVec.getLsbD_ofNat, decide_eq_true hj, Bool.true_and]

theorem toNat_hammingBits_twoPow {i : Nat} (hi : i < 64) :
    (hammingBits (BitVec.twoPow 64 i)).toNat = dataPosition i := by
  have := dataPosition_lt hi
  rw [hammingBits_twoPow hi, BitVec.toNat_ofNat, Nat.mod_eq_of_lt (by omega)]

theorem lineParity_twoPow {j : Nat} (hj : j < 8) : lineParity (BitVec.twoPow 8 j) = true := by
  interval_cases j <;> decide

theorem setWidth_twoPow_line {j : Nat} (hj : j < 7) :
    ((BitVec.twoPow 8 j).setWidth 7).toNat = 2 ^ j := by
  interval_cases j <;> decide

theorem dataBitAt_dataPosition {i : Nat} (hi : i < 64) : dataBitAt (dataPosition i) = some i := by
  have found : (dataBitAt (dataPosition i)).isSome := by
    rw [dataBitAt, List.find?_isSome]
    exact ⟨i, List.mem_range.mpr hi, by simp⟩
  obtain ⟨k, hk⟩ := Option.isSome_iff_exists.mp found
  have place : dataPosition k = dataPosition i := by simpa using List.find?_some hk
  rw [hk, dataPosition_injective place]

theorem dataBitAt_none {p : Nat} (h : ∀ i, dataPosition i ≠ p) : dataBitAt p = none := by
  simpa [dataBitAt] using fun i _ => h i

/-! ### The class of a word read with errors (the table of R34) -/

/-- A word with an odd number of errors whose syndrome is the position of data bit `i`. -/
theorem classify_at_data {d : DWord} {w : MWord} {i : Nat} (hi : i < 64) (odd : overallOdd w = true)
    (place : (syndrome w).toNat = dataPosition i) (data : w.data = d ^^^ BitVec.twoPow 64 i) :
    classify w = (.corrected, d) := by
  have := dataPosition_lt hi
  have inside : ¬ 72 ≤ dataPosition i := by omega
  have undone : w.data ^^^ BitVec.twoPow 64 i = d := by
    rw [data, BitVec.xor_assoc, BitVec.xor_self, BitVec.xor_zero]
  simp only [classify, odd, if_true, place, inside, if_false, dataBitAt_dataPosition hi, undone]

/-- A word with an odd number of errors whose syndrome is no data position. -/
theorem classify_at_check {w : MWord} (odd : overallOdd w = true) (inside : (syndrome w).toNat < 72)
    (place : ∀ i, dataPosition i ≠ (syndrome w).toNat) : classify w = (.corrected, w.data) := by
  have inside : ¬ 72 ≤ (syndrome w).toNat := by omega
  simp only [classify, odd, if_true, inside, if_false]
  rw [dataBitAt_none place]

theorem classify_even {w : MWord} (even : overallOdd w = false) :
    classify w = (if syndrome w = 0 then .good else .uncorrectable, w.data) := by
  simp only [classify, even, Bool.false_eq_true, if_false]
  split_ifs <;> rfl

theorem classify_even_nonzero {w : MWord} (even : overallOdd w = false) (nonzero : syndrome w ≠ 0) :
    classify w = (.uncorrectable, w.data) := by
  rw [classify_even even, if_neg nonzero]

theorem hammingBits_zero : hammingBits 0#64 = 0#7 := by simpa using hammingBits_xor 0#64 0#64

theorem dataParity_zero : dataParity 0#64 = false := by simpa using dataParity_xor 0#64 0#64

theorem lineParity_zero : lineParity 0#8 = false := by simpa using lineParity_xor 0#8 0#8

theorem syndrome_data (d e : DWord) : syndrome ⟨d ^^^ e, checkBits d⟩ = hammingBits e := by
  simpa using syndrome_errors d e 0

theorem overallOdd_data (d e : DWord) : overallOdd ⟨d ^^^ e, checkBits d⟩ = dataParity e := by
  simpa [lineParity_zero] using overallOdd_errors d e 0

theorem syndrome_lines (d : DWord) (c : Byte) : syndrome ⟨d, checkBits d ^^^ c⟩ = c.setWidth 7 := by
  simpa [hammingBits_zero] using syndrome_errors d 0 c

theorem overallOdd_lines (d : DWord) (c : Byte) : overallOdd ⟨d, checkBits d ^^^ c⟩ = lineParity c := by
  simpa [dataParity_zero] using overallOdd_errors d 0 c

theorem classify_coded (d : DWord) : classify (codedWord d) = (.good, d) := by
  have even : overallOdd (codedWord d) = false := by
    simpa [lineParity_zero, codedWord] using overallOdd_lines d 0
  have zero : syndrome (codedWord d) = 0 := by simpa [codedWord] using syndrome_lines d 0
  rw [classify_even even, if_pos zero, codedWord]

theorem classify_data_flipped (d : DWord) {i : Nat} (hi : i < 64) :
    classify ⟨d ^^^ BitVec.twoPow 64 i, checkBits d⟩ = (.corrected, d) := by
  refine classify_at_data hi ?_ ?_ rfl
  · rw [overallOdd_data, dataParity_twoPow hi]
  · rw [syndrome_data, toNat_hammingBits_twoPow hi]

theorem classify_line_flipped (d : DWord) {j : Nat} (hj : j < 8) :
    classify ⟨d, checkBits d ^^^ BitVec.twoPow 8 j⟩ = (.corrected, d) := by
  have odd : overallOdd ⟨d, checkBits d ^^^ BitVec.twoPow 8 j⟩ = true := by
    rw [overallOdd_lines, lineParity_twoPow hj]
  by_cases h7 : j = 7
  · subst h7
    have zero : (syndrome ⟨d, checkBits d ^^^ BitVec.twoPow 8 7⟩).toNat = 0 := by rw [syndrome_lines]; decide
    exact classify_at_check odd (by omega) fun i => zero ▸ dataPosition_ne_zero i
  · have hj : j < 7 := by omega
    have place : (syndrome ⟨d, checkBits d ^^^ BitVec.twoPow 8 j⟩).toNat = 2 ^ j := by
      rw [syndrome_lines, setWidth_twoPow_line hj]
    have small : 2 ^ j ≤ 2 ^ 6 := Nat.pow_le_pow_right (by omega) (by omega)
    exact classify_at_check odd (by omega) fun i => place ▸ dataPosition_ne_twoPow i hj

theorem classify_two_data_flipped (d : DWord) {i j : Nat} (hij : i < j) (hj : j < 64) :
    classify ⟨d ^^^ BitVec.twoPow 64 i ^^^ BitVec.twoPow 64 j, checkBits d⟩ =
      (.uncorrectable, d ^^^ BitVec.twoPow 64 i ^^^ BitVec.twoPow 64 j) := by
  have hi : i < 64 := by omega
  rw [BitVec.xor_assoc]
  refine classify_even_nonzero ?_ ?_
  · rw [overallOdd_data, dataParity_xor, dataParity_twoPow hi, dataParity_twoPow hj, Bool.xor_self]
  · rw [syndrome_data, hammingBits_xor]
    intro zero
    have same := congrArg BitVec.toNat (BitVec.xor_eq_zero_iff.mp zero)
    rw [toNat_hammingBits_twoPow hi, toNat_hammingBits_twoPow hj] at same
    exact absurd (dataPosition_injective same) (by omega)

theorem classify_data_and_line_flipped (d : DWord) {i j : Nat} (hi : i < 64) (hj : j < 8) :
    classify ⟨d ^^^ BitVec.twoPow 64 i, checkBits d ^^^ BitVec.twoPow 8 j⟩ =
      (.uncorrectable, d ^^^ BitVec.twoPow 64 i) := by
  refine classify_even_nonzero ?_ ?_
  · rw [overallOdd_errors, dataParity_twoPow hi, lineParity_twoPow hj, Bool.xor_self]
  · rw [syndrome_errors]
    intro zero
    have same := congrArg BitVec.toNat (BitVec.xor_eq_zero_iff.mp zero)
    rw [toNat_hammingBits_twoPow hi] at same
    by_cases h7 : j = 7
    · subst h7
      exact absurd (same.trans (by decide)) (dataPosition_ne_zero i)
    · have hj : j < 7 := by omega
      exact absurd (same.trans (setWidth_twoPow_line hj)) (dataPosition_ne_twoPow i hj)

theorem classify_two_lines_flipped (d : DWord) {i j : Nat} (hij : i < j) (hj : j < 8) :
    classify ⟨d, checkBits d ^^^ BitVec.twoPow 8 i ^^^ BitVec.twoPow 8 j⟩ = (.uncorrectable, d) := by
  have hi : i < 8 := by omega
  rw [BitVec.xor_assoc]
  refine classify_even_nonzero ?_ ?_
  · rw [overallOdd_lines, lineParity_xor, lineParity_twoPow hi, lineParity_twoPow hj, Bool.xor_self]
  · rw [syndrome_lines]
    interval_cases j <;> interval_cases i <;> decide

end Sys2Proof.Machine

/-- Settles O54: linearity gives every error the syndrome and parity of the flipped places alone. -/
theorem singleCorrectedDoubleFound : Obligations.SingleCorrectedDoubleFound := fun d =>
  ⟨classify_coded d, fun _ => classify_data_flipped d, fun _ => classify_line_flipped d,
    fun _ _ => classify_two_data_flipped d, fun _ _ => classify_data_and_line_flipped d,
    fun _ _ => classify_two_lines_flipped d⟩

end

section
open Sys2Proof Sys2Proof.Machine

/-! ## An idle part (log entries 1 and 5)

`dueNow` is the first arm of a list that holds an event: an event that is due comes from its own arm, and with
nothing due every arm is empty. -/

namespace Sys2Proof.Machine

theorem foldl_or_some {α : Type} {x : α} {l : List (Option α)} {o : Option α}
    (h : l.foldl Option.or o = some x) : o = some x ∨ some x ∈ l := by
  induction l generalizing o with
  | nil => exact .inl h
  | cons a l ih =>
    rcases ih h with first | later
    · rcases Option.or_eq_some_iff.mp first with here | ⟨-, next⟩
      · exact .inl here
      · exact .inr (next ▸ List.mem_cons_self)
    · exact .inr (List.mem_cons_of_mem _ later)

theorem foldl_or_none {α : Type} {l : List (Option α)} {o : Option α} (h : l.foldl Option.or o = none) :
    o = none ∧ ∀ a ∈ l, a = none := by
  induction l generalizing o with
  | nil => exact ⟨h, by simp⟩
  | cons a l ih =>
    obtain ⟨first, later⟩ := ih h
    obtain ⟨ho, ha⟩ := Option.or_eq_none_iff.mp first
    exact ⟨ho, List.forall_mem_cons.mpr ⟨ha, later⟩⟩

theorem foldl_or_of_some {α : Type} (x : α) (l : List (Option α)) : l.foldl Option.or (some x) = some x := by
  induction l with
  | nil => rfl
  | cons a l ih => simpa using ih

theorem dueIf_eq_some {b : Bool} {c x : Instr} : dueIf b c = some x ↔ b = true ∧ c = x := by
  cases b <;> simp [dueIf]

theorem dueIf_eq_none {b : Bool} {c : Instr} : dueIf b c = none ↔ ¬ b = true := by
  cases b <;> simp [dueIf]

/-- The arms of `dueNow` after the two of a hold, in its order. -/
def laterArms (s : State) : List (Option Instr) :=
  let t := s.csu.timing
  [dueIf (closedRetrainDue s) .sequenceClosedRetrain,
    (copyDue s).map .copyStart,
    dueIf (insertionDue s) .blockInsertion,
    dueIf (syncComplete s) .syncCompletion,
    dueIf (chooseItem s).isSome .itemStart,
    dueIf (syncClockDue s) .syncVisit,
    dueIf (refreshClockDue s) .refreshVisit,
    dueIf (refreshEnds s && decide (refreshTicks s ≤ s.pass.refreshClock)) .refreshPassEnd,
    dueIf (stallReached 16 s) .journalStallExpiry,
    dueIf (reached s.link.resetTicks 10) .interfaceResetEnd,
    dueIf (decide (s.link.state = .hello ∧ s.link.helloWaiting = false ∧ 1000 ≤ s.link.helloClock))
      .helloInterval,
    dueIf (decide (s.link.state = .hello ∧ 1000 * (t.missLimit * t.heartbeatMs) ≤ s.link.helloAge))
      .helloStateTimeout,
    dueIf (boundaryDue s) .heartbeatPeriodBoundary,
    dueIf (reached s.disp.ackTimer 1000) .ackTimerExpiry,
    dueIf (dualReached s) .dualClaimTimerExpiry,
    dueIf (handoffTiming s && reached s.rc.handoff (1000 * s.rc.handoffMs)) .handoffTimerExpiry,
    dueIf (reached s.rc.liveness (1000 * t.livenessMs)) .livenessExpiry,
    dueIf (decide (s.rc.busClock = .present) && reached s.rc.bclkQuiet 100) .busClockLost,
    dueIf (decide (1000 ≤ s.csu.postClock)) .postingTick,
    dueIf (prolongedReached s) .prolongedCommandCompletion,
    portDue s]

theorem dueNow_eq (s : State) :
    dueNow s =
      (laterArms s).foldl Option.or
        ((dueIf (readFree s) .heldReadRelease).or (dueIf (stallHasRoom s) .journalStallRoom)) := by
  simp only [dueNow, laterArms, List.foldl_cons, List.foldl_nil]

theorem portDue_cases {s : State} {c : Instr} (h : portDue s = some c) :
    c = .applyMergeRead ∨ c = .applyWordWrite ∨ c = .readoutRead ∨ c = .statusPostingWrite := by
  unfold portDue at h
  cases hc : clockRuns s <;> simp only [hc, if_true, Bool.false_eq_true, if_false, reduceCtorEq] at h
  · cases next : nextClass s with
    | none => simp [next] at h
    | some k => cases k <;> simp only [next, Option.some.injEq] at h <;> subst h <;> simp [ite_eq_iff, em']

theorem readFree_stall {s : State} (h : stallHasRoom s = true) : readFree s = false := by
  unfold stallHasRoom at h
  unfold readFree
  split at h <;> simp_all

/-- Room for a stalled write comes before every other event. -/
theorem dueNow_stallRoom {s : State} (h : stallHasRoom s = true) : dueNow s = some .journalStallRoom := by
  simp [dueNow_eq, readFree_stall h, h, dueIf, foldl_or_of_some]

/-- An event that is due, of another kind than a hold's, comes from one of the later arms. -/
theorem laterArms_of_dueNow {s : State} {c : Instr} (h : dueNow s = some c) (hr : c ≠ .heldReadRelease)
    (hs : c ≠ .journalStallRoom) : some c ∈ laterArms s := by
  rw [dueNow_eq] at h
  rcases foldl_or_some h with hold | later
  · rcases Option.or_eq_some_iff.mp hold with read | ⟨-, stall⟩
    · exact absurd (dueIf_eq_some.mp read).2.symm hr
    · exact absurd (dueIf_eq_some.mp stall).2.symm hs
  · exact later

theorem laterArms_of_none {s : State} (h : dueNow s = none) : ∀ a ∈ laterArms s, a = none :=
  (foldl_or_none (dueNow_eq s ▸ h)).2

theorem reached_iff {c : Option Nat} {n : Nat} : reached c n = true ↔ ∃ x, c = some x ∧ n ≤ x := by
  cases c <;> simp [reached]

theorem not_reached_iff {c : Option Nat} {n : Nat} : ¬ reached c n = true ↔ ∀ x, c = some x → x < n := by
  cases c <;> simp [reached]

theorem stallReached_iff {n : Nat} {s : State} :
    stallReached n s = true ↔ ∃ a t, s.bpt.held = .stall a t ∧ n ≤ t := by
  unfold stallReached
  split
  · next h => simp [h]
  · next h => simpa using fun a t hs => absurd hs (h a t)

theorem dualReached_iff {s : State} : dualReached s = true ↔ ∃ n, s.rc.dual = .running n ∧ 100000 ≤ n := by
  unfold dualReached
  split
  · next h => simp [h]
  · next h => simpa using fun n hs => absurd hs (h n)

theorem prolongedReached_iff {s : State} :
    prolongedReached s = true ↔ ∃ n, 1000 ≤ n ∧
      ((∃ k w, s.csu.running = some (.define k w n)) ∨ ∃ k, s.csu.running = some (.clear k n)) := by
  unfold prolongedReached
  split
  · next h => simp [h]
  · next h => simp [h]
  · next hd hc =>
    refine ⟨fun h => absurd h Bool.false_ne_true, ?_⟩
    rintro ⟨n, -, ⟨k, w, h⟩ | ⟨k, h⟩⟩
    · exact absurd h (hd k w n)
    · exact absurd h (hc k n)

theorem syncClockDue_iff {s : State} :
    syncClockDue s = true ↔ s.pass.phase = .passing ∧ s.pass.syncPos < totalRecords s.windows ∧
      ((∃ b, s.csu.timing.syncMode = .demand b ∧ dirtyTotal s.rts + flightTotal s.rts < b) ∨
        ∃ d, s.csu.timing.syncMode = .paced d ∧
          visitOffset (totalRecords s.windows) (1000000 * d) s.pass.syncPos ≤ s.pass.syncClock) := by
  unfold syncClockDue syncVisitDue syncStepsLeft backlog syncTicks
  cases s.csu.timing.syncMode <;> simp [and_assoc]

theorem refreshClockDue_iff {s : State} :
    refreshClockDue s = true ↔ s.pass.refreshing = true ∧ s.pass.refreshPos < refreshTotal s.windows ∧
      visitOffset (refreshTotal s.windows) (1000 * s.csu.timing.refreshMs) s.pass.refreshPos ≤
        s.pass.refreshClock := by
  simp only [refreshClockDue, refreshStepsLeft, Bool.and_eq_true, decide_eq_true_eq, and_assoc]
  rfl

theorem refreshEnd_iff {s : State} :
    (refreshEnds s && decide (refreshTicks s ≤ s.pass.refreshClock)) = true ↔
      s.pass.refreshing = true ∧ refreshTotal s.windows ≤ s.pass.refreshPos ∧
        1000 * s.csu.timing.refreshMs ≤ s.pass.refreshClock := by
  simp only [refreshEnds, Bool.and_eq_true, decide_eq_true_eq, and_assoc]
  rfl

theorem handoffDue_iff {s : State} :
    (handoffTiming s && reached s.rc.handoff (1000 * s.rc.handoffMs)) = true ↔
      s.rc.role = .handoff ∧ s.rc.closing = false ∧ ∃ n, s.rc.handoff = some n ∧ 1000 * s.rc.handoffMs ≤ n := by
  cases h : s.rc.handoff <;> simp [handoffTiming, reached, h, and_assoc]

/-- The condition under which an event comes due, for the timed events (R26, R68, R80, R83, R99, R122, R124, R130,
R149, R152, R156, R157, R160, R166). -/
def timeHasPassed (s : State) : Instr → Prop
  | .ackTimerExpiry => reached s.disp.ackTimer 1000 = true
  | .journalStallExpiry => stallReached 16 s = true
  | .dualClaimTimerExpiry => dualReached s = true
  | .handoffTimerExpiry => (handoffTiming s && reached s.rc.handoff (1000 * s.rc.handoffMs)) = true
  | .livenessExpiry => reached s.rc.liveness (1000 * s.csu.timing.livenessMs) = true
  | .heartbeatPeriodBoundary => boundaryDue s = true
  | .helloStateTimeout =>
    s.link.state = .hello ∧ 1000 * (s.csu.timing.missLimit * s.csu.timing.heartbeatMs) ≤ s.link.helloAge
  | .helloInterval => s.link.state = .hello ∧ s.link.helloWaiting = false ∧ 1000 ≤ s.link.helloClock
  | .interfaceResetEnd => reached s.link.resetTicks 10 = true
  | .postingTick => 1000 ≤ s.csu.postClock
  | .busClockLost => (decide (s.rc.busClock = .present) && reached s.rc.bclkQuiet 100) = true
  | .prolongedCommandCompletion => prolongedReached s = true
  | .syncVisit => syncClockDue s = true
  | .refreshVisit => refreshClockDue s = true
  | .refreshPassEnd => (refreshEnds s && decide (refreshTicks s ≤ s.pass.refreshClock)) = true
  | _ => True

theorem laterArms_timeHasPassed {s : State} {c : Instr} (h : some c ∈ laterArms s) : timeHasPassed s c := by
  simp only [laterArms, List.mem_cons, List.not_mem_nil, or_false, @eq_comm _ (some c), dueIf_eq_some,
    Option.map_eq_some_iff, decide_eq_true_eq] at h
  rcases h with ⟨due, rfl⟩ | ⟨k, due, rfl⟩ | ⟨due, rfl⟩ | ⟨due, rfl⟩ | ⟨due, rfl⟩ | ⟨due, rfl⟩ | ⟨due, rfl⟩ | ⟨due, rfl⟩ |
    ⟨due, rfl⟩ | ⟨due, rfl⟩ | ⟨due, rfl⟩ | ⟨due, rfl⟩ | ⟨due, rfl⟩ | ⟨due, rfl⟩ | ⟨due, rfl⟩ | ⟨due, rfl⟩ |
    ⟨due, rfl⟩ | ⟨due, rfl⟩ | ⟨due, rfl⟩ | ⟨due, rfl⟩ | port
  case inr => rcases portDue_cases port with rfl | rfl | rfl | rfl <;> trivial
  all_goals simp only [timeHasPassed, due, and_self]

/-- A timed event that is due has its time passed. -/
theorem timeHasPassed_of_dueNow {s : State} {c : Instr} (h : dueNow s = some c) (hr : c ≠ .heldReadRelease)
    (hs : c ≠ .journalStallRoom) : timeHasPassed s c :=
  laterArms_timeHasPassed (laterArms_of_dueNow h hr hs)

/-- With nothing due, no timed event has its time passed. -/
theorem not_timeHasPassed_of_none {s : State} (h : dueNow s = none) :
    ¬ syncClockDue s = true ∧ ¬ refreshClockDue s = true ∧
    ¬ (refreshEnds s && decide (refreshTicks s ≤ s.pass.refreshClock)) = true ∧ ¬ stallReached 16 s = true ∧
    ¬ reached s.link.resetTicks 10 = true ∧
    ¬ (s.link.state = .hello ∧ s.link.helloWaiting = false ∧ 1000 ≤ s.link.helloClock) ∧
    ¬ (s.link.state = .hello ∧
      1000 * (s.csu.timing.missLimit * s.csu.timing.heartbeatMs) ≤ s.link.helloAge) ∧
    ¬ boundaryDue s = true ∧ ¬ reached s.disp.ackTimer 1000 = true ∧ ¬ dualReached s = true ∧
    ¬ (handoffTiming s && reached s.rc.handoff (1000 * s.rc.handoffMs)) = true ∧
    ¬ reached s.rc.liveness (1000 * s.csu.timing.livenessMs) = true ∧
    ¬ (decide (s.rc.busClock = .present) && reached s.rc.bclkQuiet 100) = true ∧
    ¬ 1000 ≤ s.csu.postClock ∧ ¬ prolongedReached s = true := by
  have empty := laterArms_of_none h
  simp only [laterArms, List.forall_mem_cons, dueIf_eq_none, decide_eq_true_eq] at empty
  obtain ⟨-, -, -, -, -, visit, refresh, ends, stall, reset, interval, state, boundary, ack, dual, handoff,
    liveness, lost, posting, prolonged, -⟩ := empty
  exact ⟨visit, refresh, ends, stall, reset, interval, state, boundary, ack, dual, handoff, liveness, lost,
    posting, prolonged⟩

theorem step_idle {s : State} (h : s.pending = []) :
    step s = match takeWaiting s with
      | some t => .next t
      | none => match dueNow s with
        | some c => exec c s
        | none => .next (tick s) := by
  unfold step
  rw [h]
  rfl

theorem tick_eq (s : State) :
    tick s =
      { s with
        bpt := { s.bpt with held := match s.bpt.held with | .stall a n => .stall a (n + 1) | x => x }
        disp := { s.disp with ackTimer := s.disp.ackTimer.map (· + 1) }
        link :=
          { s.link with
            resetTicks := s.link.resetTicks.map (· + 1), periodClock := s.link.periodClock.map (· + 1)
            helloClock := s.link.helloClock + if s.link.state = .hello then 1 else 0
            helloAge := s.link.helloAge + if s.link.state = .hello then 1 else 0 }
        pass :=
          { s.pass with
            syncClock := s.pass.syncClock + if syncPaced s = true then 1 else 0
            refreshClock := s.pass.refreshClock + if s.pass.refreshing = true then 1 else 0 }
        rc :=
          { s.rc with
            dual := (match s.rc.dual with | .running n => .running (n + 1) | x => x)
            handoff := s.rc.handoff.map (· + 1), liveness := s.rc.liveness.map (· + 1)
            bclkQuiet := s.rc.bclkQuiet.map (· + 1) }
        csu :=
          { s.csu with
            postClock := s.csu.postClock + 1
            running := s.csu.running.map fun
              | .define k w n => .define k w (n + 1)
              | .clear k n => .clear k (n + 1)
              | .switchover => .switchover } } := by
  simp only [tick, add_ite, Nat.add_zero]
  rfl

end Sys2Proof.Machine

/-- Settles O2: an event that is due comes from its own arm of the list, and one tick is `tick_eq`. -/
theorem idleStep : Obligations.IdleStep := by
  refine ⟨fun s h => ?_, fun s => ?_⟩
  · refine ⟨fun t ht => ?_, fun c ht hc => ?_, fun ht hc => ?_⟩ <;> rw [step_idle h]
    · simp only [ht]
    · simp only [ht, hc]
    · simp only [ht, hc]
  · have due {c : Instr} (h : dueNow s = some c) (hr : c ≠ .heldReadRelease) (hs : c ≠ .journalStallRoom) :
        timeHasPassed s c := timeHasPassed_of_dueNow h hr hs
    refine ⟨fun h => reached_iff.mp (due h nofun nofun), fun h => ?_,
      fun h => dualReached_iff.mp (due h nofun nofun), fun h => handoffDue_iff.mp (due h nofun nofun),
      fun h => reached_iff.mp (due h nofun nofun), fun h => reached_iff.mp (due h nofun nofun),
      fun h => due h nofun nofun, fun h => due h nofun nofun, fun h => reached_iff.mp (due h nofun nofun),
      fun h => due h nofun nofun, fun h => ?_, fun h => prolongedReached_iff.mp (due h nofun nofun),
      fun h => syncClockDue_iff.mp (due h nofun nofun), fun h => refreshClockDue_iff.mp (due h nofun nofun),
      fun h => refreshEnd_iff.mp (due h nofun nofun), fun h => ?_, tick_eq s⟩
    · obtain ⟨a, n, held, passed⟩ := stallReached_iff.mp (due h nofun nofun)
      refine ⟨a, n, held, passed, Bool.eq_false_iff.mpr fun room => ?_⟩
      rw [dueNow_stallRoom room] at h
      cases h
    · obtain ⟨watched, quiet⟩ := (Bool.and_eq_true _ _).mp (due h nofun nofun)
      exact ⟨of_decide_eq_true watched, reached_iff.mp quiet⟩
    · obtain ⟨visit, refresh, ends, stall, reset, interval, state, boundary, ack, dual, handoff, liveness, lost,
        posting, prolonged⟩ := not_timeHasPassed_of_none h
      refine ⟨fun passing left => ⟨fun b hb => ?_, fun d hd => ?_⟩, fun on => ⟨fun left => ?_, fun left => ?_⟩,
        not_reached_iff.mp ack, fun a n hn => ?_, fun n hn => ?_, fun n hr hc hn => ?_,
        not_reached_iff.mp liveness, not_reached_iff.mp boundary, fun hello => ⟨?_, fun idle => ?_⟩,
        not_reached_iff.mp reset, by omega, fun n present hn => ?_, fun k w n hn => ?_, fun k n hn => ?_⟩ <;>
        by_contra late
      · exact visit (syncClockDue_iff.mpr ⟨passing, left, .inl ⟨b, hb, by omega⟩⟩)
      · exact visit (syncClockDue_iff.mpr ⟨passing, left, .inr ⟨d, hd, by omega⟩⟩)
      · exact refresh (refreshClockDue_iff.mpr ⟨on, left, by omega⟩)
      · exact ends (refreshEnd_iff.mpr ⟨on, left, by omega⟩)
      · exact stall (stallReached_iff.mpr ⟨a, n, hn, by omega⟩)
      · exact dual (dualReached_iff.mpr ⟨n, hn, by omega⟩)
      · exact handoff (handoffDue_iff.mpr ⟨hr, hc, n, hn, by omega⟩)
      · exact state ⟨hello, by omega⟩
      · exact interval ⟨hello, idle, by omega⟩
      · exact lost ((Bool.and_eq_true _ _).mpr ⟨decide_eq_true present, reached_iff.mpr ⟨n, hn, by omega⟩⟩)
      · exact prolonged (prolongedReached_iff.mpr ⟨n, by omega, .inl ⟨k, w, hn⟩⟩)
      · exact prolonged (prolongedReached_iff.mpr ⟨n, by omega, .inr ⟨k, hn⟩⟩)

end

section
open Sys2Proof Sys2Proof.Machine

/-! ## Posting ticks and posting writes (R30 to R33, R166, R167) -/

namespace Sys2Proof.Machine

variable {b s : State}

/-- The close of a step posts nothing where every state word stands. -/
theorem postQueue_close_standing (h : ∀ w ∈ stateWords, postingStands b s w = true) :
    (close b s).csu.postQueue = s.csu.postQueue := by
  have stands (ws : List Nat) (hs : ∀ w ∈ ws, postingStands b s w = true) :
      postChanged b ws (driveInt s) = driveInt s := by
    induction ws with
    | nil => rfl
    | cons w ws ih =>
      obtain ⟨hw, hws⟩ := List.forall_mem_cons.mp hs
      simp only [postChanged]
      rw [if_pos (by exact hw), ih hws]
  rw [close, stands stateWords h]
  rfl

/-- A state word whose value is unchanged, and for which no other value is pending, stands. -/
theorem postingStands_of_same {w : Nat} (same : statusWord s w = statusWord b w)
    (pending : ∀ v, pendingValue w s.csu.postQueue = some v → v = statusWord s w) : postingStands b s w = true := by
  cases hv : pendingValue w s.csu.postQueue with
  | none => simp [postingStands, same, hv]
  | some v => simp [postingStands, same, hv, (pending v hv).trans same]

/-! ### The posting tick -/

/-- One count word at a posting tick (R166). -/
def postCount (w : Nat) (s : State) : State :=
  if statusWord s w = lastCount w s.csu then s
  else (post w (statusWord s w) s).onCsu fun c =>
    { c with lastCounts := postInto w (statusWord s w) c.lastCounts }

theorem postCounts_cons (w : Nat) (ws : List Nat) (s : State) :
    postCounts (w :: ws) s = postCounts ws (postCount w s) := rfl

/-- Posting a count changes the posting queue and the values last posted, and nothing else. -/
theorem postCount_spec (w : Nat) (s : State) :
    ∃ q l, postCount w s = s.onCsu fun c => { c with postQueue := q, lastCounts := l } := by
  unfold postCount
  split_ifs
  · exact ⟨s.csu.postQueue, s.csu.lastCounts, rfl⟩
  · exact ⟨_, _, rfl⟩

theorem statusWord_postCount (w : Nat) (s : State) (x : Nat) : statusWord (postCount w s) x = statusWord s x := by
  obtain ⟨q, l, h⟩ := postCount_spec w s
  rw [h]
  rfl

theorem lastCount_postCount (w : Nat) (s : State) (x : Nat) :
    lastCount x (postCount w s).csu = if x = w then statusWord s w else lastCount x s.csu := by
  unfold postCount
  split_ifs with stands hx hx
  · rw [hx, stands]
  · rfl
  all_goals
    change (pendingValue x (postInto w (statusWord s w) s.csu.lastCounts)).getD 0 = _
    rw [pendingValue_postInto]
  · rw [if_pos hx, Option.getD_some]
  · rw [if_neg hx, lastCount]

theorem pendingValue_postCount (w : Nat) (s : State) (x : Nat) :
    pendingValue x (postCount w s).csu.postQueue =
      if x = w ∧ statusWord s w ≠ lastCount w s.csu then some (statusWord s w)
      else pendingValue x s.csu.postQueue := by
  unfold postCount
  by_cases stands : statusWord s w = lastCount w s.csu
  · simp [stands]
  · rw [if_neg stands]
    change pendingValue x (postInto w (statusWord s w) s.csu.postQueue) = _
    simp [pendingValue_postInto, stands]

/-- Posting the counts changes the posting queue and the values last posted, and nothing else. -/
theorem postCounts_spec (ws : List Nat) (s : State) :
    ∃ q l, postCounts ws s = s.onCsu fun c => { c with postQueue := q, lastCounts := l } := by
  induction ws generalizing s with
  | nil => exact ⟨s.csu.postQueue, s.csu.lastCounts, rfl⟩
  | cons w ws ih =>
    obtain ⟨q, l, h⟩ := postCount_spec w s
    obtain ⟨q', l', h'⟩ := ih (postCount w s)
    exact ⟨q', l', by rw [postCounts_cons, h', h]; rfl⟩

/-- After a tick the value last posted for a count word is its present value. -/
theorem lastCount_postCounts (ws : List Nat) (s : State) (x : Nat) :
    lastCount x (postCounts ws s).csu = if x ∈ ws then statusWord s x else lastCount x s.csu := by
  induction ws generalizing s with
  | nil => simp [postCounts]
  | cons w ws ih =>
    rw [postCounts_cons, ih, statusWord_postCount, lastCount_postCount]
    by_cases hx : x = w
    · subst hx; simp
    · simp [hx]

/-- After a tick a count word whose value differs from the last posted is pending with it, and what was pending for
every other word still is. -/
theorem pendingValue_postCounts (ws : List Nat) (s : State) (x : Nat) :
    pendingValue x (postCounts ws s).csu.postQueue =
      if x ∈ ws ∧ statusWord s x ≠ lastCount x s.csu then some (statusWord s x)
      else pendingValue x s.csu.postQueue := by
  induction ws generalizing s with
  | nil => simp [postCounts]
  | cons w ws ih =>
    rw [postCounts_cons, ih, statusWord_postCount, lastCount_postCount, pendingValue_postCount]
    by_cases hx : x = w
    · subst hx; simp
    · simp [hx]

/-- The clock of the posting ticks started anew (R166). -/
def clockAnew (s : State) : State := s.onCsu fun c => { c with postClock := 0 }

/-- The state at a posting tick before its close. -/
def ticked (s : State) : State := clockAnew (postCounts countWords s)

theorem exec_postingTick (s : State) : exec .postingTick s = .next (close s (ticked s)) := rfl

theorem ticked_spec (s : State) :
    ∃ q l, ticked s = s.onCsu fun c => { c with postQueue := q, lastCounts := l, postClock := 0 } := by
  obtain ⟨q, l, h⟩ := postCounts_spec countWords s
  exact ⟨q, l, by rw [ticked, h, clockAnew]; rfl⟩

theorem clockAnew_postQueue (s : State) : (clockAnew s).csu.postQueue = s.csu.postQueue := rfl

theorem lastCount_clockAnew (s : State) (w : Nat) : lastCount w (clockAnew s).csu = lastCount w s.csu := rfl


theorem statusWord_ticked (s : State) (w : Nat) : statusWord (ticked s) w = statusWord s w := by
  obtain ⟨q, l, h⟩ := ticked_spec s
  rw [h]
  rfl

theorem lastCount_ticked {w : Nat} (hw : w ∈ countWords) : lastCount w (ticked s).csu = statusWord s w := by
  rw [ticked, lastCount_clockAnew, lastCount_postCounts, if_pos hw]

theorem pendingValue_ticked_count {w : Nat} (hw : w ∈ countWords) :
    pendingValue w (ticked s).csu.postQueue =
      if statusWord s w = lastCount w s.csu then pendingValue w s.csu.postQueue else some (statusWord s w) := by
  rw [ticked, clockAnew_postQueue, pendingValue_postCounts]
  by_cases stands : statusWord s w = lastCount w s.csu <;> simp [hw, stands]

theorem pendingValue_ticked_other {w : Nat} (hw : w ∉ countWords) :
    pendingValue w (ticked s).csu.postQueue = pendingValue w s.csu.postQueue := by
  rw [ticked, clockAnew_postQueue, pendingValue_postCounts, if_neg fun h => hw h.1]

theorem stateWords_counts : ∀ w ∈ stateWords, w ∉ countWords := by decide

/-- The state words stand over a step that leaves the status words and what is pending for the state words. -/
theorem statesStand (law : PostedLaw b) (same : ∀ w, statusWord s w = statusWord b w)
    (kept : ∀ w ∈ stateWords, ∀ v, pendingValue w s.csu.postQueue = some v →
      pendingValue w b.csu.postQueue = some v) : ∀ w ∈ stateWords, postingStands b s w = true :=
  fun w hw => postingStands_of_same (same w) fun v hv => (law w hw v (kept w hw v hv)).trans (same w).symm

/-- Where the state words stand, the close leaves every pending value. -/
theorem pendingValue_close_standing (h : ∀ w ∈ stateWords, postingStands b s w = true) (w : Nat) :
    pendingValue w (close b s).csu.postQueue = pendingValue w s.csu.postQueue := by
  rw [postQueue_close_standing h]

/-! ### The posting write -/

theorem portSlot_stopped {c : PortClass} (h : s.rc.bclkQuiet ≠ none) : portSlot c s = s := by
  have : clockRuns s = false := by simpa [clockRuns, Option.isSome_iff_ne_none] using h
  simp [portSlot, this]

theorem portSlot_running {c : PortClass} (h : s.rc.bclkQuiet = none) (hc : nextClass s = some c) :
    portSlot c s = grantPart c s := by
  have : clockRuns s = true := by simp [clockRuns, h]
  simp [portSlot, this, hc]

/-- The rest of a queue with each word once has nothing pending for the front's word, and for every other word what
the queue had. -/
theorem pendingValue_tail {p : Posting} {rest : List Posting} (h : PostsFit (p :: rest)) (w : Nat) :
    pendingValue w rest = if w = p.word then none else pendingValue w (p :: rest) := by
  split_ifs with hw
  · have absent : p.word ∉ rest.map (·.word) := (List.nodup_cons.mp h.1).1
    simp only [List.mem_map, not_exists, not_and] at absent
    simp only [pendingValue, Option.map_eq_none_iff, List.find?_eq_none, decide_eq_true_eq]
    exact fun q hq => hw ▸ absent q hq
  · have : ¬ p.word = w := fun e => hw e.symm
    simp [pendingValue, this]

/-- Writing the front word changes memory, the posting queue and the result hold. -/
theorem postingWrite_spec {p : Posting} {rest : List Posting} (h : s.csu.postQueue = p :: rest) :
    ∃ q r, postingWrite s =
      { s with
        mem := memWrite s.mem (BitVec.ofNat 19 (524160 + p.word)) (codedWord p.value)
        csu := { s.csu with postQueue := q, resultHold := r } } ∧
      (p.word ≠ 2 ∨ p.value.getLsbD 63 = false ∨ s.csu.resultHold = none → q = rest ∧ r = s.csu.resultHold) ∧
      (∀ v, p.word = 2 → p.value.getLsbD 63 = true → s.csu.resultHold = some v →
        q = postInto 2 v rest ∧ r = none) ∧
      ∀ w, w ≠ 2 → pendingValue w q = pendingValue w rest := by
  unfold postingWrite
  simp only [h]
  by_cases done : p.word = 2 ∧ p.value.getLsbD 63 = true
  · rw [if_pos done]
    cases hold : s.csu.resultHold with
    | none => exact ⟨rest, s.csu.resultHold, rfl, fun _ => ⟨rfl, hold⟩, fun v _ _ hv => (nomatch hv), fun _ _ => rfl⟩
    | some v =>
      refine ⟨postInto 2 v rest, none, rfl, fun other => ?_, fun u _ _ hu => ?_,
        fun w hw => by rw [pendingValue_postInto, if_neg hw]⟩
      · rcases other with word | value | none
        · exact absurd done.1 word
        · exact absurd (done.2.symm.trans value) (by decide)
        · cases none
      · rw [Option.some.inj hu]; exact ⟨rfl, rfl⟩
  · rw [if_neg done]
    exact ⟨rest, s.csu.resultHold, rfl, fun _ => ⟨rfl, rfl⟩, fun v hw hd => absurd ⟨hw, hd⟩ done,
      fun _ _ => rfl⟩

/-- A slot of the status class: the posting write, with the waiting count at 0 (R31). -/
theorem grantPart_status {p : Posting} {rest : List Posting} (h : s.csu.postQueue = p :: rest) :
    ∃ q r o, grantPart .status s =
      { s with
        mem := memWrite s.mem (BitVec.ofNat 19 (524160 + p.word)) (codedWord p.value)
        bpt := { s.bpt with waitCount := 0, offers := o }
        csu := { s.csu with postQueue := q, resultHold := r } } ∧
      (p.word ≠ 2 ∨ p.value.getLsbD 63 = false ∨ s.csu.resultHold = none → q = rest ∧ r = s.csu.resultHold) ∧
      (∀ v, p.word = 2 → p.value.getLsbD 63 = true → s.csu.resultHold = some v →
        q = postInto 2 v rest ∧ r = none) ∧
      ∀ w, w ≠ 2 → pendingValue w q = pendingValue w rest := by
  obtain ⟨q, r, spec, plain, held, others⟩ := postingWrite_spec (p := p) (rest := rest)
    (s := s.onBpt fun b => { b with waitCount := 0, offers := b.offers.filter fun o => decide (o.cls ≠ .status) }) h
  exact ⟨q, r, _, spec, plain, held, others⟩

theorem close_waitCount_zero (h : s.bpt.waitCount = 0) : (close b s).bpt.waitCount = 0 := by
  obtain ⟨q, hq⟩ := postChanged_spec b stateWords (driveInt s)
  rw [close, hq]
  simp only [settleOffers, State.onBpt_bpt]
  split_ifs
  · rfl
  · exact h

end Sys2Proof.Machine

/-- Settles O50: the close of either step posts nothing more, for the state words stand. -/
theorem postings : Obligations.Postings := by
  refine ⟨fun s quiet => ⟨_, rfl, ?_⟩, fun s law => ⟨_, exec_postingTick s, ?_⟩,
    fun s p rest hq runs hc law room => ⟨_, rfl, ?_⟩⟩
  · rw [close_unreported, portSlot_stopped quiet]
  · obtain ⟨q, l, spec⟩ := ticked_spec s
    have stands := statesStand law (statusWord_ticked s) fun w hw v hv => by
      have : w ∉ countWords := stateWords_counts w hw
      rwa [pendingValue_ticked_other this] at hv
    refine ⟨by rw [spec]; simp, by rw [spec]; simp, by rw [spec]; simp, by rw [spec]; simp, by rw [spec]; simp,
      by rw [spec]; simp, fun w hw => ⟨?_, ?_⟩, fun w hw => ?_⟩
    · rw [lastCount, close_lastCounts]
      exact lastCount_ticked hw
    · rw [pendingValue_close_standing stands]
      exact pendingValue_ticked_count hw
    · have : w ∉ countWords := (by decide : ∀ w ∈ [0, 1, 2, 3, 6, 7], w ∉ countWords) w hw
      rw [pendingValue_close_standing stands, pendingValue_ticked_other this]
  · have fit : PostsFit (p :: rest) := hq ▸ ⟨room.2.2.2.2.1, room.2.2.2.2.2⟩
    obtain ⟨q, r, o, spec, plain, held, others⟩ := grantPart_status hq
    have queue : (grantPart .status s).csu.postQueue = q := by rw [spec]
    have hold : (grantPart .status s).csu.resultHold = r := by rw [spec]
    have stands : ∀ w ∈ stateWords, postingStands s (grantPart .status s) w = true := by
      refine statesStand law (fun w => by rw [spec]; rfl) fun w hw v hv => ?_
      have ne : w ≠ 2 := (by decide : ∀ w ∈ stateWords, w ≠ 2) w hw
      rw [queue, others w ne, pendingValue_tail fit] at hv
      split_ifs at hv
      rwa [hq]
    rw [portSlot_running runs hc]
    refine ⟨by rw [close_mem, spec]; rfl, close_waitCount_zero (by rw [spec]), by rw [close_rc, spec],
      by rw [close_disp, spec], by rw [close_rts, spec], by rw [close_link, spec], fun h => ?_, fun v hw hd hv => ?_⟩ <;>
      rw [postQueue_close_standing stands, close_resultHold, queue, hold]
    · exact plain h
    · obtain ⟨rfl, rfl⟩ := held v hw hd hv
      exact ⟨by rw [pendingValue_postInto, if_pos rfl], rfl, fun w hw => others w hw⟩

end

section
open Sys2Proof Sys2Proof.Machine
/-! A pending notice stays pending through every effect of a role and of the link, and one that is not is raised by few
(R169). -/

namespace Sys2Proof.Machine

/-- The notice of bit `i` is pending, or not, as `v` says; where it is not it is none of those that the role changes and
the emptyings raise. -/
structure Shows (i : Nat) (v : Bool) (s : State) : Prop where
  apart : v = true ∨ i ≠ Notice.roleChanged.bit ∧ i ≠ Notice.commandDone.bit ∧ i ≠ Notice.journalDesync.bit
  bit   : s.csu.pendingSet.getLsbD i = v

/-- The notice of bit `i` is pending. -/
abbrev Pends (i : Nat) (s : State) : Prop := Shows i true s

theorem Notice.bit_lt (n : Notice) : n.bit < 16 := by cases n <;> decide

theorem Notice.getLsbD_mask (n : Notice) (i : Nat) : n.mask.getLsbD i = decide (i = n.bit) := by
  have := n.bit_lt
  rw [Notice.mask, BitVec.getLsbD_twoPow, decide_eq_true this, Bool.true_and, decide_eq_decide]
  exact eq_comm

theorem pends_raised (n : Notice) (s : State) : Pends n.bit (raise n s) :=
  ⟨.inl rfl, by simp [raise_spec, Notice.getLsbD_mask]⟩

namespace Shows
variable {i : Nat} {v : Bool} {s t : State}

theorem same (h : Shows i v s) (e : t.csu.pendingSet = s.csu.pendingSet) : Shows i v t := ⟨h.apart, by rw [e, h.bit]⟩

theorem ite {p : Prop} [Decidable p] (ht : p → Shows i v t) (hs : ¬ p → Shows i v s) : Shows i v (if p then t else s) := by
  split
  · exact ht (by assumption)
  · exact hs (by assumption)

theorem raise {n : Notice} (h : Shows i v s) (hn : v = true ∨ i ≠ n.bit) : Shows i v (raise n s) := by
  refine ⟨h.apart, ?_⟩
  simp only [raise_spec, BitVec.getLsbD_or, h.bit, Notice.getLsbD_mask]
  rcases hn with rfl | hn
  · rfl
  · simp [hn]

theorem roleChanged (h : Shows i v s) : v = true ∨ i ≠ Notice.roleChanged.bit := h.apart.imp_right (·.1)
theorem commandDone (h : Shows i v s) : v = true ∨ i ≠ Notice.commandDone.bit := h.apart.imp_right (·.2.1)
theorem journalDesync (h : Shows i v s) : v = true ∨ i ≠ Notice.journalDesync.bit := h.apart.imp_right (·.2.2)

theorem onRc {f : RoleController → RoleController} (h : Shows i v s) : Shows i v (s.onRc f) := h.same rfl
theorem onRts {f : Rts → Rts} (h : Shows i v s) : Shows i v (s.onRts f) := h.same rfl
theorem onPass {f : PassEngine → PassEngine} (h : Shows i v s) : Shows i v (s.onPass f) := h.same rfl
theorem onDisp {f : Dispatcher → Dispatcher} (h : Shows i v s) : Shows i v (s.onDisp f) := h.same rfl
theorem onLink {f : Link → Link} (h : Shows i v s) : Shows i v (s.onLink f) := h.same rfl
theorem onJournals {f : Journals → Journals} (h : Shows i v s) : Shows i v (s.onJournals f) := h.same rfl

theorem enterDesync {k : Slot} (h : Shows i v s) : Shows i v (enterDesync k s) :=
  ite (fun _ => h.onJournals.raise h.journalDesync) fun _ => h

theorem desyncSlots (h : Shows i v s) (l : List Slot) : Shows i v (desyncSlots l s) := by
  induction l generalizing s with
  | nil => exact h
  | cons k l ih => exact ih h.enterDesync

theorem emptyJournals (h : Shows i v s) : Shows i v (emptyJournals s) :=
  h.onJournals.desyncSlots allSlots

theorem emptyCleared (h : Shows i v s) : Shows i v (emptyCleared s) := h.onDisp.emptyJournals

theorem emptyGoingBack (h : Shows i v s) : Shows i v (emptyGoingBack s) := by
  obtain ⟨x, e, -⟩ := recordsGoneBack_spec s.disp.inFlight s
  exact (h.same (t := recordsGoneBack s.disp.inFlight s) (by rw [e])).onDisp.emptyJournals

theorem abortSync (h : Shows i v s) : Shows i v (abortSync s) := h.onPass.onRts

theorem stopRefresh (h : Shows i v s) : Shows i v (stopRefresh s) := h.onPass

theorem streamEnded (h : Shows i v s) : Shows i v (Machine.stopRefresh (Machine.abortSync (Machine.emptyGoingBack s))) :=
  h.emptyGoingBack.abortSync.stopRefresh

theorem clearReplication (h : Shows i v s) : Shows i v (clearReplication s) := h.onRts.emptyCleared.abortSync.stopRefresh

theorem setRole {r : Role} (h : Shows i v s) : Shows i v (setRole r s) := by
  have : (Machine.setRole r s).csu.pendingSet = (Machine.raise .roleChanged s).csu.pendingSet := rfl
  exact (h.raise h.roleChanged).same this

theorem freeRead {b : State} (h : Shows i v s) : Shows i v (freeRead b s) := by
  obtain ⟨x, e, -⟩ := freeRead_spec b s
  exact h.same (by rw [e])

theorem settleSeen (h : Shows i v s) : Shows i v (settleSeen s) := ite (fun _ => h.onLink) fun _ => h

theorem emptyApply (h : Shows i v s) : Shows i v (emptyApply s) := by
  obtain ⟨x, b, e, -⟩ := emptyApply_spec s
  exact h.same (by rw [e])

theorem completeWith {c : Byte} {r : ResultCode} {n : Nat} (h : Shows i v s) : Shows i v (completeWith c r n s) := by
  obtain ⟨q, x, e⟩ := completeWith_spec c r n s
  exact (h.raise h.commandDone).same (by rw [e]; rfl)

theorem endSwitchover {r : ResultCode} (h : Shows i v s) : Shows i v (endSwitchover r s) :=
  ite (fun _ => h.completeWith) fun _ => h

theorem leaveHandoff (h : Shows i v s) : Shows i v (leaveHandoff s) := h.onRc

theorem demote {x : SyncState} (h : Shows i v s) : Shows i v (demote x s) :=
  h.leaveHandoff.setRole.clearReplication.emptyApply.onRc

theorem handoffReturns {r : ResultCode} (h : Shows i v s) : Shows i v (handoffReturns r s) :=
  h.leaveHandoff.setRole.endSwitchover

theorem handoffSucceeds (h : Shows i v s) : Shows i v (handoffSucceeds s) := h.onRc.demote.endSwitchover

theorem demoteDual (h : Shows i v s) : Shows i v (demoteDual s) := h.demote.onRc.endSwitchover

theorem enterReleased (h : Shows i v s) : Shows i v (enterReleased s) :=
  h.leaveHandoff.setRole.clearReplication.emptyApply.onRc.endSwitchover

theorem clearMarks (h : Shows i v s) : Shows i v (clearMarks s) := h.onRts
theorem copyInStep (h : Shows i v s) : Shows i v (copyInStep s) := h.onJournals
theorem restartSync (h : Shows i v s) : Shows i v (restartSync s) := h.clearMarks.copyInStep.onPass
theorem armSyncBegin (h : Shows i v s) : Shows i v (armSyncBegin s) := h.onDisp
theorem startSync (h : Shows i v s) : Shows i v (startSync s) := h.restartSync.armSyncBegin
theorem beginRefresh (h : Shows i v s) : Shows i v (beginRefresh s) := h.onPass

theorem decideIfPaired (h : Shows i v s) : Shows i v (decideIfPaired s) :=
  ite (fun _ => (ite (fun _ => h) fun _ => h.startSync).beginRefresh) fun _ => h

theorem promote (h : Shows i v s) : Shows i v (promote s) := h.onRc.setRole.clearReplication.decideIfPaired

theorem promoteIfDrained (h : Shows i v s) : Shows i v (promoteIfDrained s) := ite (fun _ => h.promote) fun _ => h

theorem takeOverNow (h : Shows i v s) : Shows i v (takeOverNow s) := h.setRole.promoteIfDrained

theorem judgeLost (h : Shows i v s) : Shows i v (judgeLost s) := ite (fun _ => h.takeOverNow) fun _ => h

theorem judgeNoActive {b : State} (h : Shows i v s) (hn : v = true ∨ i ≠ Notice.noActive.bit) :
    Shows i v (judgeNoActive b s) :=
  ite (fun _ => ite (fun _ => h.takeOverNow) fun _ => h.raise hn) fun _ => h

theorem judgeTakeover {b : State} (h : Shows i v s) (hn : v = true ∨ i ≠ Notice.noActive.bit) :
    Shows i v (judgeTakeover b s) := h.judgeLost.judgeNoActive hn

theorem peerRoleChanged {old : Role} (h : Shows i v s) : Shows i v (peerRoleChanged old s) :=
  ite (fun _ => h.handoffSucceeds) fun _ =>
    ite (fun _ => ite (fun _ => h.streamEnded.handoffReturns) fun _ => h.streamEnded) fun _ =>
      ite (fun _ => h.decideIfPaired) fun _ => ite (fun _ => h.handoffReturns) fun _ => h

theorem leaveUp {x : PeerView} (h : Shows i v (dropLink x s)) : Shows i v (leaveUp x s) :=
  ite (fun _ => h.demote.endSwitchover) fun _ => ite (fun _ => h.streamEnded.handoffReturns) fun _ => h.streamEnded

end Shows

/-! ## Retirement: the entry to STANDBY or RELEASED with everything emptied (R138, R154) -/

/-- The completion of the emptying of the apply queue, exactly (R29, R83, R114). -/
theorem emptyApply_eq (s : State) :
    ∃ h, emptyApply s =
        { s with
          bpt := { s.bpt with held := h }
          apply := { s.apply with queue := [], written := 0, merged := none }
          link := { s.link with
            seen := s.link.seen || decide (s.link.state = .hello ∧ s.link.helloPassed = true) } } ∧
      ((∀ a, s.bpt.held ≠ .read a) → h = s.bpt.held) ∧
      ∀ a, s.bpt.held = .read a → h = if covered s a = true then .port ⟨false, a, 0, 0, 0⟩ else .read a := by
  obtain ⟨h, e, -, hn, hr⟩ :=
    freeRead_spec s (s.onApply fun a => { a with queue := [], written := 0, merged := none })
  have uncovered (a : Addr) :
      covered (s.onApply fun a => { a with queue := [], written := 0, merged := none }) a = false := rfl
  refine ⟨h, ?_, hn, fun a ha => by simpa [uncovered] using hr a ha⟩
  unfold emptyApply settleSeen
  rw [e]
  simp only [State.onApply, and_true]
  split_ifs with hs
  · simp [State.onLink, hs]
  · simp [hs]

/-- A part that leaves its role for `r` and its claim, with everything emptied: the body of demotion and of the entry to
RELEASED. -/
def retire (r : Role) (x : SyncState) (s : State) : State :=
  (emptyApply (clearReplication (setRole r (leaveHandoff s)))).onRc fun c => { c with sync := x }

theorem demote_eq_retire (x : SyncState) (s : State) : demote x s = retire .standby x s := rfl

theorem enterReleased_eq_retire (s : State) :
    enterReleased s = endSwitchover .aborted (retire .released .unsynced s) := rfl

/-- Everything a retirement changes. -/
theorem retire_eq (r : Role) (x : SyncState) (s : State) (hr : claims r = false) :
    ∃ v p q h, retire r x s =
        { s with
          rts := { tags := [], pointers := Vector.replicate 8 0, outstanding := 0 }
          journals := { queue := [], states := v }
          disp :=
            { s.disp with
              readouts := Vector.replicate 4 none, inFlight := [], syncBeginArm := false, syncDoneArm := false,
              handoverArm := false, ackTimer := none
              seqClosed := s.disp.seqClosed || (!s.disp.inFlight.isEmpty && decide (s.link.state = .up)) }
          pass :=
            { s.pass with
              phase := .none, syncPos := 0, syncClock := 0, awaited := .none, refreshing := false, refreshPos := 0,
              refreshClock := 0 }
          apply := { s.apply with queue := [], written := 0, merged := none }
          link := { s.link with
            seen := s.link.seen || decide (s.link.state = .hello ∧ s.link.helloPassed = true) }
          rc := { s.rc with
            role := r, closing := false, handoff := none, claimOut := false, dual := .stopped, sync := x }
          bpt := { s.bpt with held := h }
          csu := { s.csu with pendingSet := p, postQueue := q } } ∧
      (∀ k : Slot, v[k] = (s.journals.states[k]).map fun _ => .desync) ∧
      ((∀ a, s.bpt.held ≠ .read a) → h = s.bpt.held) ∧
      ∀ a, s.bpt.held = .read a → h = if covered s a = true then .port ⟨false, a, 0, 0, 0⟩ else .read a := by
  obtain ⟨v, p, e, hv⟩ := clearReplication_spec (setRole r (leaveHandoff s))
  have role := setRole_spec r (leaveHandoff s)
  generalize postInto 0 (statusWord (setRole r (leaveHandoff s)) 0) (leaveHandoff s).csu.postQueue = q at role
  obtain ⟨h, ea, hn, hc⟩ := emptyApply_eq (clearReplication (setRole r (leaveHandoff s)))
  refine ⟨v, p, q, h, ?_, ?_, ?_, ?_⟩
  · rw [retire, ea, e, role]
    simp only [State.onRc, leaveHandoff, hr]
    rfl
  · rw [role] at hv
    exact hv
  · rw [e, role] at hn
    exact hn
  · rw [e, role] at hc
    exact hc

/-- A retired part, with its journal states `v`, what stands in its Dispatcher `d`, its hold `h` and its Control and
Status Unit `c`. -/
def State.retired (r : Role) (x : SyncState) (v : Vector (Option JournalState) 8) (d : Dispatcher) (h : Held) (c : Csu)
    (s : State) : State :=
  { s with
    rts := { tags := [], pointers := Vector.replicate 8 0, outstanding := 0 }
    journals := { queue := [], states := v }
    disp := { d with inFlight := [] }
    pass := { s.pass with
      phase := .none, syncPos := 0, syncClock := 0, awaited := .none, refreshing := false, refreshPos := 0
      refreshClock := 0 }
    apply := { s.apply with queue := [], written := 0, merged := none }
    link := { s.link with seen := s.link.seen || decide (s.link.state = .hello ∧ s.link.helloPassed = true) }
    rc := { s.rc with role := r, closing := false, handoff := none, claimOut := false, dual := .stopped, sync := x }
    bpt := { s.bpt with held := h }
    csu := c }

/-- What a retirement leaves, by what it does not reach. -/
theorem retire_retired (r : Role) (x : SyncState) (s : State) (hr : claims r = false) :
    ∃ v d h c, retire r x s = s.retired r x v d h c ∧ c.running = s.csu.running ∧ c.result = s.csu.result ∧
      c.timing = s.csu.timing ∧ (∀ a, s.bpt.held = .read a → covered s a = true → h = .port ⟨false, a, 0, 0, 0⟩) ∧
      ∀ k : Slot, v[k] = (s.journals.states[k]).map fun _ => .desync := by
  obtain ⟨v, p, q, h, e, hv, -, hread⟩ := retire_eq r x s hr
  refine ⟨v, (retire r x s).disp, h, (retire r x s).csu, ?_, ?_, ?_, ?_,
    fun a held cover => (hread a held).trans (if_pos cover), hv⟩ <;> rw [e]
  rfl

end Sys2Proof.Machine
end

section
open Sys2Proof Sys2Proof.Machine
/-! The end of a step whose event may reach a stalled write (R27): the write stands, is suppressed, or is driven. -/

namespace Sys2Proof.Machine

variable {b s : State}

/-! ## What the waiting rule may serve where nothing is applied or read out -/

/-- With nothing to apply and nothing in flight only the status class offers a request (R30). -/
theorem status_of_currentOffers (hq : applies s.rc.role = true → s.apply.queue = []) (hf : s.disp.inFlight = [])
    {o : Offer} (ho : o ∈ currentOffers s) : o.cls = .status := by
  have reading : readingEntry s.disp = none := by simp [readingEntry, hf]
  have write : nextWrite s = none := by
    unfold nextWrite
    split
    · next applying => rw [hq applying]
    · rfl
  have merge : nextMergeRead s = none := by
    unfold nextMergeRead
    split
    · next applying => rw [hq applying]
    · rfl
  cases posts : s.csu.postQueue <;> simp [currentOffers, write, merge, reading, posts] at ho
  rw [ho]
  rfl

theorem waitingRule_offers {a : Access} {c : PortClass} (h : waitingRule a s = some c) :
    ∃ o ∈ s.bpt.offers, o.cls = c := by
  have head : s.bpt.offers.head?.map Offer.cls = some c := by
    unfold waitingRule at h
    by_cases count : s.bpt.waitCount = 32
    · rw [if_pos count] at h
      cases first : s.bpt.offers.head?.map Offer.cls with
      | none => simp [first] at h
      | some k =>
        cases k <;> simp only [first, ite_eq_iff, reduceCtorEq, and_false, false_or] at h
        · exact h
        · exact h.2
        · exact h
    · rw [if_neg count] at h
      cases h
  obtain ⟨o, ho, hc⟩ := Option.map_eq_some_iff.mp head
  exact ⟨o, List.mem_of_mem_head? ho, hc⟩

/-- All but memory, the bus path and the postings is the same. -/
def Aside (s t : State) : Prop :=
  ∃ m p q h i, t = { s with mem := m, bpt := p, csu := { s.csu with postQueue := q, resultHold := h, intHigh := i } }

theorem Aside.trans {t u : State} (h : Aside s t) (h' : Aside t u) : Aside s u := by
  obtain ⟨m, p, q, r, i, rfl⟩ := h
  obtain ⟨m', p', q', r', i', rfl⟩ := h'
  exact ⟨m', p', q', r', i', rfl⟩

/-- A posting write and an access change memory, the bus path and the postings, and count nothing as suppressed. -/
structure Ported (s t : State) : Prop where
  same : Aside s t
  suppressed : t.bpt.suppressed = s.bpt.suppressed

namespace Ported
variable {t u : State}

theorem refl (s : State) : Ported s s := ⟨⟨s.mem, s.bpt, s.csu.postQueue, s.csu.resultHold, s.csu.intHigh, rfl⟩, rfl⟩

theorem trans (h : Ported s t) (h' : Ported t u) : Ported s u :=
   ⟨h.same.trans h'.same, h'.suppressed.trans h.suppressed⟩

theorem onBpt {f : Bpt → Bpt} (h : (f s.bpt).suppressed = s.bpt.suppressed) : Ported s (s.onBpt f) :=
  ⟨⟨s.mem, f s.bpt, s.csu.postQueue, s.csu.resultHold, s.csu.intHigh, rfl⟩, h⟩

theorem onMem (f : Memory → Memory) : Ported s (s.onMem f) :=
  ⟨⟨f s.mem, s.bpt, s.csu.postQueue, s.csu.resultHold, s.csu.intHigh, rfl⟩, rfl⟩

theorem close (b s : State) : Ported s (close b s) := by
  obtain ⟨q, o, n, h⟩ := close_spec b s
  exact ⟨⟨s.mem, _, q, s.csu.resultHold, _, h⟩, close_suppressed b s⟩

theorem driveAccess (a : Access) (s : State) : Ported s (driveAccess a s) := by
  unfold Machine.driveAccess
  split
  · exact onMem _
  · exact onBpt rfl

theorem countUpstream (s : State) : Ported s (countUpstream s) := onBpt rfl

theorem grantStatus (s : State) : Ported s (grantPart .status s) := by
  cases hq : s.csu.postQueue with
  | nil =>
    have : grantPart .status s =
        s.onBpt fun b => { b with waitCount := 0, offers := b.offers.filter fun o => decide (o.cls ≠ .status) } := by
      unfold grantPart serve postingWrite
      simp only [State.onBpt_csu, hq]
    rw [this]
    exact onBpt rfl
  | cons p rest =>
    obtain ⟨q, r, o, h, -⟩ := grantPart_status hq
    exact ⟨⟨_, _, q, r, s.csu.intHigh, h⟩, by rw [h]⟩

/-- An access forwarded where only the status class may come before it. -/
theorem forward (a : Access) (hs : ∀ o ∈ s.bpt.offers, o.cls = .status) : Ported s (forward a s) := by
  have granted (u : State) : Ported u (Machine.countUpstream (Machine.driveAccess a u)) :=
    (driveAccess a u).trans (countUpstream _)
  unfold Machine.forward
  split
  · unfold grantUpstream
    split
    · next c hc =>
      obtain ⟨o, ho, rfl⟩ := waitingRule_offers hc
      rw [hs o ho]
      exact ((grantStatus s).trans (close s _)).trans (granted _)
    · exact granted s
  · exact onBpt rfl

end Ported

/-- The offers that a close leaves are the requests then offered (R31). -/
theorem currentOffers_of_settled {o : Offer} (h : o ∈ (settleOffers s).bpt.offers) :
    o ∈ currentOffers (settleOffers s) := (mem_settleOffers s o).mp h

theorem currentOffers_of_close {o : Offer} (h : o ∈ (close b s).bpt.offers) : o ∈ currentOffers (close b s) :=
  currentOffers_of_settled h

/-! ## The three ways -/

theorem stallState_close (b s : State) (a : Access) : stallState (close b s) a = stallState s a := by
  simp [stallState, stallSlot]

/-- An event that leaves a stalled write captured and queued leaves it stalled (R25). -/
theorem finish_stands {a : Access} {n : Nat} (h : s.bpt.held = .stall a n) (hc : captures s.rc = true)
    (hq : queuesWrites (stallState s a) = true) : (finish b s).unreported = s.unreported := by
  have suppresses : suppresses s.rc = false := captures_not_suppresses hc
  have held : (close b s).bpt.held = .stall a n := (close_held b s).trans h
  have resolved : resolveStall (close b s) = close b s := by
    unfold resolveStall
    simp only [held, close_rc, stallState_close, suppresses, hc, hq]
    simp
  rw [finish, resolved, close_unreported, close_unreported]

/-- An event that leaves a part suppressing drops the stalled write and counts it (R23, R27). -/
theorem finish_suppressed {a : Access} {n : Nat} (h : s.bpt.held = .stall a n) (hs : suppresses s.rc = true) :
    (finish b s).unreported = (countSuppressed (endHold s)).unreported := by
  have held : (close b s).bpt.held = .stall a n := (close_held b s).trans h
  have resolved : resolveStall (close b s) = countSuppressed (endHold (close b s)) := by
    unfold resolveStall
    simp only [held, close_rc, hs]
    rfl
  rw [finish, resolved, close_unreported]
  obtain ⟨q, o, n, e⟩ := close_spec b s
  rw [e]
  rfl

theorem finish_forwards {a : Access} {n : Nat} (h : s.bpt.held = .stall a n) (hs : suppresses s.rc = false)
    (hq : captures s.rc = false ∨ queuesWrites (stallState s a) = false) :
    finish b s = close (close b s) (forward a (endHold (close b s))) := by
  have held : (close b s).bpt.held = .stall a n := (close_held b s).trans h
  have resolved : resolveStall (close b s) = forward a (endHold (close b s)) := by
    have plain : (captures s.rc && queuesWrites (stallState s a)) = false := by
      rcases hq with hq | hq <;> simp [hq]
    unfold resolveStall
    simp only [held, close_rc, stallState_close, hs, plain]
    rfl
  rw [finish, resolved]

/-- An event that leaves a stalled write neither suppressed nor queued drives it to memory, or has it wait there while
BCLK does not run (R27, R32). -/
theorem finish_driven {a : Access} {n : Nat} (h : s.bpt.held = .stall a n) (hs : suppresses s.rc = false)
    (hq : captures s.rc = false ∨ queuesWrites (stallState s a) = false) (hw : a.write = true)
    (hn : s.bpt.waitCount < 32) :
    (finish b s).unreported =
      (if s.rc.bclkQuiet = none then { s with mem := memDrive s.mem a, bpt := { s.bpt with held := .none } }
       else { s with bpt := { s.bpt with held := .port a } } : State).unreported := by
  have count : (endHold (close b s)).bpt.waitCount < 32 := close_waitCount_lt b s hn
  rw [finish_forwards h hs hq, close_unreported, forward_write hw count]
  obtain ⟨q, o, n, e⟩ := close_spec b s
  rw [e]
  by_cases quiet : s.rc.bclkQuiet = none
  · rw [if_pos quiet, if_pos (by exact quiet)]
    rfl
  · rw [if_neg quiet, if_neg (by exact quiet)]
    rfl

/-- While BCLK does not run the write waits for its memory cycle, whatever the waiting count (R27, R32). -/
theorem finish_waits {a : Access} {n : Nat} (h : s.bpt.held = .stall a n) (hs : suppresses s.rc = false)
    (hq : captures s.rc = false ∨ queuesWrites (stallState s a) = false) (hc : s.rc.bclkQuiet ≠ none) :
    (finish b s).unreported = ({ s with bpt := { s.bpt with held := .port a } } : State).unreported := by
  have stopped : (endHold (close b s)).rc.bclkQuiet ≠ none := by
    rw [show (endHold (close b s)).rc = (close b s).rc from rfl, close_rc]
    exact hc
  rw [finish_forwards h hs hq, close_unreported, forward_stopped stopped]
  obtain ⟨q, o, n, e⟩ := close_spec b s
  rw [e]
  rfl

theorem finish_eq (b s : State) : finish b s = close (close b s) (resolveStall (close b s)) := rfl

/-- The resolution of a stall that is not suppressed, where nothing is to be applied or read out behind it. -/
theorem resolveStall_ported (hs : suppresses s.rc = false)
    (hq : ∀ a n, s.bpt.held = .stall a n → (applies s.rc.role = true → s.apply.queue = []) ∧ s.disp.inFlight = []) :
    Ported (close b s) (resolveStall (close b s)) := by
  unfold resolveStall
  split
  · next a n held =>
    rw [close_held] at held
    obtain ⟨queue, inFlight⟩ := hq a n held
    rw [if_neg (by simp [hs])]
    split
    · exact .refl _
    · refine (Ported.onBpt rfl).trans (Ported.forward a fun o ho => ?_)
      refine status_of_currentOffers (fun applying => ?_) (close_disp b s ▸ inFlight :) (currentOffers_of_close ho)
      rw [close_rc] at applying
      exact close_apply b s ▸ queue applying
  · exact .refl _

/-- The end of a step on a part that suppresses nothing: all but memory, the bus path and the postings is as the event left
it, where the event leaves nothing to apply or to read out behind a stall. -/
theorem finish_ported (hs : suppresses s.rc = false)
    (hq : ∀ a n, s.bpt.held = .stall a n → (applies s.rc.role = true → s.apply.queue = []) ∧ s.disp.inFlight = []) : Ported s (finish b s) :=
  ((Ported.close b s).trans (resolveStall_ported hs hq)).trans (Ported.close _ _)

theorem countSuppressed_aside (s : State) : Aside s (countSuppressed (endHold s)) :=
  ⟨s.mem, _, s.csu.postQueue, s.csu.resultHold, s.csu.intHigh, rfl⟩

/-- The same of a part that suppresses, but for the count. -/
theorem finish_aside (hq : ∀ a n, s.bpt.held = .stall a n → suppresses s.rc = false →
    (applies s.rc.role = true → s.apply.queue = []) ∧ s.disp.inFlight = []) : Aside s (finish b s) := by
  cases hs : suppresses s.rc with
  | false => exact (finish_ported hs fun a n h => hq a n h hs).same
  | true =>
    have resolved : Aside (close b s) (resolveStall (close b s)) := by
      unfold resolveStall
      split
      · rw [if_pos (by rw [close_rc]; exact hs)]
        exact countSuppressed_aside _
      · exact (Ported.refl _).same
    exact ((Ported.close b s).same.trans resolved).trans (Ported.close _ _).same

end Sys2Proof.Machine
end

section
open Sys2Proof Sys2Proof.Machine
/-! The departure of the link from UP (R69, R86, R87, R128, R131, R150), and the returns of a handoff. -/

namespace Sys2Proof.Machine

/-! ## The end of a handoff -/

/-- The result of the end of a SWITCHOVER (R148 to R151). -/
def switchoverEnds (r : ResultCode) : ResultWord := { code := 0x12, result := r, field := 0, done := true }

/-- Everything the end of a SWITCHOVER changes. -/
theorem endSwitchover_ends (r : ResultCode) {s : State} (runs : s.csu.running = some .switchover) :
    ∃ q h, endSwitchover r s =
      { s with csu := { s.csu with
          running := none, result := switchoverEnds r
          pendingSet := s.csu.pendingSet ||| Notice.commandDone.mask, postQueue := q, resultHold := h } } := by
  obtain ⟨q, x, e⟩ := completeWith_spec 0x12 r 0 s
  exact ⟨q, x, ((endSwitchover_spec r s).1 runs).trans e⟩

/-- The timer of two claims is in step with both claims already (R152). -/
theorem dualAfter_self {c : RoleController} (h : c.dual = .stopped ↔ (claims c.role && c.claimIn) = false)
    (hr : claims c.role = true) : dualAfter (true && c.claimIn) c.dual = c.dual := by
  rw [hr] at h
  cases hc : (true && c.claimIn) with
  | false => simp [dualAfter, h.mpr hc]
  | true =>
    cases hd : c.dual with
    | stopped => exact absurd (h.mp hd) (by simp [hc])
    | running n => rfl
    | expired => rfl

/-- Everything a return to ACTIVE changes (R149, R150). -/
theorem handoffReturns_eq (r : ResultCode) {s : State} (hr : s.rc.role = .handoff) (hc : ClaimLaw s)
    (runs : s.csu.running = some .switchover) :
    ∃ q h, handoffReturns r s =
      { s with
        rc := { s.rc with role := .active, closing := false, handoff := none }
        csu := { s.csu with
          running := none, result := switchoverEnds r
          pendingSet := s.csu.pendingSet ||| Notice.roleChanged.mask ||| Notice.commandDone.mask
          postQueue := q, resultHold := h } } := by
  obtain ⟨claim, dual⟩ := hc
  have claiming : claims s.rc.role = true := by rw [hr]; rfl
  obtain ⟨q, h, e⟩ := endSwitchover_ends r (s := setRole .active (leaveHandoff s)) runs
  refine ⟨q, h, e.trans ?_⟩
  rw [setRole_spec]
  have out : claims .active = s.rc.claimOut := (claim.trans claiming).symm
  have stays : dualAfter (s.rc.claimOut && s.rc.claimIn) s.rc.dual = s.rc.dual := by
    rw [claim, claiming]
    exact dualAfter_self dual claiming
  simp only [leaveHandoff, State.onRc, out, stays]

/-! ## The records that go back (R43, R69) -/

theorem afterGoBack_twice (x : TagState) : afterGoBack (afterGoBack x) = afterGoBack x := by cases x <;> rfl

theorem afterGoBack_family {x : TagState} (h : inFamily x = true) : afterGoBack x = .dirty := by
  cases x <;> first | rfl | cases h

/-- One entry's record goes back. -/
def entryBack (e : InFlight) (s : State) : State :=
  match e.item with
  | .record k i => recordEvent .goBack k i s
  | _ => s

theorem recordsGoneBack_cons (e : InFlight) (l : List InFlight) (s : State) :
    recordsGoneBack (e :: l) s = recordsGoneBack l (entryBack e s) := rfl

theorem entryBack_eq (e : InFlight) (s : State) :
    entryBack e s = match entryTag s.windows e with
      | some n => tagEvent .goBack n s
      | none => s := by
  unfold entryBack entryTag recordEvent
  cases e.item with
  | record k i => cases h : recordAt s.windows k <;> simp [h]
  | _ => rfl

/-- The tags after the go-back of a list of entries: each record's tag goes back, and no other moves. -/
theorem tagAt_recordsGoneBack (l : List InFlight) {s : State} (h : TagForm s) (n : Nat) :
    tagAt (recordsGoneBack l s).rts n =
      if n ∈ l.filterMap (entryTag s.windows) then tagAfter .goBack (tagAt s.rts n) else tagAt s.rts n := by
  induction l generalizing s with
  | nil => simp [recordsGoneBack]
  | cons e l ih =>
    rw [recordsGoneBack_cons, entryBack_eq]
    cases he : entryTag s.windows e with
    | none =>
      simp only
      rw [ih h, List.filterMap_cons_none he]
    | some m =>
      simp only
      have windows : (tagEvent .goBack m s).windows = s.windows := rfl
      rw [ih (tagForm_tagEvent .goBack m h), List.filterMap_cons_some he, windows]
      by_cases hn : n = m
      · subst hn
        rw [tagAt_tagEvent_same .goBack n h]
        simp [tagAfter, afterGoBack_twice]
      · rw [tagAt_tagEvent_other .goBack h hn]
        simp [hn]

theorem tags_streamEnded (s : State) :
    (stopRefresh (abortSync (emptyGoingBack s))).rts.tags = (recordsGoneBack s.disp.inFlight s).rts.tags := by
  obtain ⟨v, p, e, -⟩ := emptyJournals_spec (clearDispatcher (recordsGoneBack s.disp.inFlight s))
  have stopped (u : State) : (stopRefresh (abortSync u)).rts.tags = u.rts.tags := rfl
  rw [stopped, emptyGoingBack, e]
  rfl

theorem tagAt_congr {r q : Rts} (h : r.tags = q.tags) (n : Nat) : tagAt r n = tagAt q n := by simp only [tagAt, h]

/-- The end of the sequence stream makes every record in flight DIRTY, and moves no other tag (R43, R69). -/
theorem tagAt_streamEnded {s : State} (h : FlightLaw s) (n : Nat) :
    (tagAt (stopRefresh (abortSync (emptyGoingBack s))).rts n).state =
        (if n ∈ entryTags s then .dirty else (tagAt s.rts n).state) ∧
      (tagAt (stopRefresh (abortSync (emptyGoingBack s))).rts n).covered = (tagAt s.rts n).covered := by
  rw [tagAt_congr (tags_streamEnded s), tagAt_recordsGoneBack _ h.form]
  by_cases hn : n ∈ entryTags s
  · rw [if_pos (by exact hn), if_pos hn]
    exact ⟨afterGoBack_family (h.flying n hn), rfl⟩
  · rw [if_neg (by exact hn), if_neg hn]
    exact ⟨rfl, rfl⟩

theorem queuesWrites_desynced (x : Option JournalState) : queuesWrites (x.map fun _ => .desync) = false := by
  cases x <;> rfl

/-- Where every journal window is DESYNC or none, no stalled write is queued. -/
theorem queuesWrites_stallState {s t : State} (hv : ∀ k : Slot, t.journals.states[k] = (s.journals.states[k]).map fun _ => .desync)
    (a : Access) : queuesWrites (stallState t a) = false := by
  unfold stallState
  split
  · rw [hv]
    exact queuesWrites_desynced _
  · rfl

/-! ## The departure from UP -/

/-- The link in TRAIN after it has left UP by a retrain or a loss of alignment (R80, R86). -/
def Link.retrained (l : Link) (divider : Nat) : Link :=
  { l with
    state := .train, view := .interrupted, ackWaiting := false, nakWaiting := false, seen := false,
    divider := divider, resetTicks := some 0, alignCount := 0, aligned := false, strayBytes := 0,
    incoming := none, helloPassed := false, helloSeenIn := false, helloSeenOut := false, helloWaiting := false,
    sending := none }

/-- The passes stopped (R128, R131). -/
def PassEngine.stopped (p : PassEngine) : PassEngine :=
  { p with
    phase := .none, syncPos := 0, syncClock := 0, awaited := .none, refreshing := false, refreshPos := 0,
    refreshClock := 0 }

/-- The move of the link from UP to TRAIN. -/
def fallToTrain (s : State) : State := enterTrain (leaveUp .interrupted s)

section
variable {s : State}

/-- What every departure from UP leaves, whatever the role. -/
structure FallsToTrain (s t : State) : Prop where
  link        : t.link = s.link.retrained s.csu.timing.divider
  inFlight    : t.disp.inFlight = []
  readouts    : t.disp.readouts = Vector.replicate 4 none
  ackTimer    : t.disp.ackTimer = none
  syncBegin   : t.disp.syncBeginArm = false
  syncDone    : t.disp.syncDoneArm = false
  handover    : t.disp.handoverArm = false
  queue       : t.journals.queue = []
  states      : ∀ k : Slot, t.journals.states[k] = (s.journals.states[k]).map fun _ => .desync
  pass        : t.pass = s.pass.stopped
  outstanding : t.rts.outstanding = 0
  linkDown    : Pends Notice.linkDown.bit t
  windows     : t.windows = s.windows
  timing      : t.csu.timing = s.csu.timing

theorem FallsToTrain.aside {t u : State} (h : FallsToTrain s t) (h' : Aside t u) : FallsToTrain s u := by
  obtain ⟨m, p, q, x, i, rfl⟩ := h'
  exact ⟨h.link, h.inFlight, h.readouts, h.ackTimer, h.syncBegin, h.syncDone, h.handover, h.queue, h.states, h.pass,
    h.outstanding, h.linkDown.same rfl, h.windows, h.timing⟩

theorem fallToTrain_outer (s : State) : (fallToTrain s).outer = s.outer := by
  have dropped : (dropLink .interrupted s).outer = s.outer := rfl
  simp only [fallToTrain, enterTrain_outer, leaveUp, State.ite_outer, endSwitchover_outer, demote_outer,
    handoffReturns_outer, streamEnded_outer, dropped, ite_self]

/-- An empty apply queue covers nothing (R28). -/
theorem covered_empty (h : s.apply.queue = []) (a : Addr) : covered s a = false := by
  unfold covered
  rw [h]
  rfl

theorem dropLink_linkDown (v : PeerView) (s : State) : Pends Notice.linkDown.bit (dropLink v s) :=
  pends_raised .linkDown _

theorem fallToTrain_linkDown (s : State) : Pends Notice.linkDown.bit (fallToTrain s) := by
  unfold fallToTrain enterTrain
  exact (dropLink_linkDown .interrupted s).leaveUp.onLink

/-- The departure from UP in the closing sub-state: demotion, UNSYNCED (R86, R150). -/
theorem fallToTrain_closing (hr : s.rc.role = .handoff) (hc : s.rc.closing = true)
    (runs : s.csu.running = some .switchover) :
    FallsToTrain s (fallToTrain s) ∧
      (fallToTrain s).rc = { s.rc with
        role := .standby, closing := false, handoff := none, sync := .unsynced, claimOut := false, dual := .stopped } ∧
      (fallToTrain s).rts.tags = [] ∧ (fallToTrain s).apply.queue = [] ∧
      (fallToTrain s).csu.result = switchoverEnds .linkLost ∧ (fallToTrain s).csu.running = none ∧
      (s.apply.queue = [] → (fallToTrain s).bpt.held = s.bpt.held) := by
  obtain ⟨v, p, q, h, e, hv, hn, hread⟩ := retire_eq .standby .unsynced (dropLink .interrupted s) rfl
  have keeps : s.apply.queue = [] → h = s.bpt.held := fun queue => by
    by_cases read : ∃ a, s.bpt.held = .read a
    · obtain ⟨a, ha⟩ := read
      have uncovered : covered (dropLink .interrupted s) a = false :=
        covered_empty (by rw [← queue]; rfl) a
      rw [hread a ha, uncovered, ha]
      rfl
    · exact hn fun a ha => read ⟨a, ha⟩
  rw [← demote_eq_retire] at e
  obtain ⟨q', x, e'⟩ := endSwitchover_ends .linkLost (s := demote .unsynced (dropLink .interrupted s))
    (by rw [e]; exact runs)
  have down := fallToTrain_linkDown s
  rw [fallToTrain, leaveUp_closing .interrupted hr hc, e', e] at down ⊢
  exact ⟨⟨rfl, rfl, rfl, rfl, rfl, rfl, rfl, rfl, hv, rfl, rfl, down, rfl, rfl⟩, rfl, rfl, rfl, rfl, rfl,
    keeps⟩

/-- The departure from UP in HANDOFF before closing: the part returns to ACTIVE (R86, R150). -/
theorem fallToTrain_returns (hr : s.rc.role = .handoff) (hc : s.rc.closing = false) (claim : ClaimLaw s)
    (runs : s.csu.running = some .switchover) :
    FallsToTrain s (fallToTrain s) ∧
      (fallToTrain s).rc = { s.rc with role := .active, closing := false, handoff := none } ∧
      (fallToTrain s).apply = s.apply ∧ (fallToTrain s).csu.result = switchoverEnds .linkLost ∧
      (fallToTrain s).csu.running = none ∧ (fallToTrain s).bpt = s.bpt ∧
      (fallToTrain s).rts = (stopRefresh (abortSync (emptyGoingBack (dropLink .interrupted s)))).rts := by
  obtain ⟨x, v, p, e, -, hv⟩ := streamEnded_spec (dropLink .interrupted s)
  obtain ⟨q', h, e'⟩ := handoffReturns_eq .linkLost
    (s := stopRefresh (abortSync (emptyGoingBack (dropLink .interrupted s)))) (by rw [e]; exact hr)
    (by rw [e]; exact claim) (by rw [e]; exact runs)
  have down := fallToTrain_linkDown s
  rw [fallToTrain, leaveUp_returns .interrupted hr hc, e', e] at down ⊢
  exact ⟨⟨rfl, rfl, rfl, rfl, rfl, rfl, rfl, rfl, hv, rfl, rfl, down, rfl, rfl⟩, rfl, rfl, rfl, rfl, rfl, rfl⟩

/-- The departure from UP in any other role, which stands (R86). -/
theorem fallToTrain_stands (hr : s.rc.role ≠ .handoff) :
    FallsToTrain s (fallToTrain s) ∧ (fallToTrain s).rc = s.rc ∧ (fallToTrain s).apply = s.apply ∧
      (fallToTrain s).csu.result = s.csu.result ∧ (fallToTrain s).csu.running = s.csu.running ∧
      (fallToTrain s).bpt = s.bpt ∧
      (fallToTrain s).rts = (stopRefresh (abortSync (emptyGoingBack (dropLink .interrupted s)))).rts := by
  obtain ⟨x, v, p, e, -, hv⟩ := streamEnded_spec (dropLink .interrupted s)
  have down := fallToTrain_linkDown s
  rw [fallToTrain, leaveUp_stands .interrupted hr, e] at down ⊢
  exact ⟨⟨rfl, rfl, rfl, rfl, rfl, rfl, rfl, rfl, hv, rfl, rfl, down, rfl, rfl⟩, rfl, rfl, rfl, rfl, rfl, rfl⟩

/-- A claiming part has nothing to apply (R104). -/
theorem queue_empty_of_claims (role : RoleLaw s) (hc : claims s.rc.role = true) : s.apply.queue = [] := by
  by_contra queue
  have applying := role.apply queue
  rw [applies_of_claims hc] at applying
  cases applying

/-- The departure from UP in every role. -/
theorem fallToTrain_falls (role : RoleLaw s) :
    FallsToTrain s (fallToTrain s) ∧ (fallToTrain s).bpt.held = s.bpt.held ∧
      (s.apply.queue = [] → (fallToTrain s).apply.queue = []) ∧
      (s.rc.closing = false → (fallToTrain s).rts = (stopRefresh (abortSync (emptyGoingBack (dropLink .interrupted s)))).rts) := by
  by_cases hr : s.rc.role = .handoff
  · have runs := role.handoff.mp hr
    cases closing : s.rc.closing with
    | true =>
      obtain ⟨fallen, -, -, queue, -, -, held⟩ := fallToTrain_closing hr closing runs
      exact ⟨fallen, held (queue_empty_of_claims role (by rw [hr]; rfl)), fun _ => queue, nofun⟩
    | false =>
      obtain ⟨fallen, -, apply, -, -, bpt, rts⟩ := fallToTrain_returns hr closing role.claim runs
      exact ⟨fallen, congrArg _ bpt, fun queue => apply ▸ queue, fun _ => rts⟩
  · obtain ⟨fallen, -, apply, -, -, bpt, rts⟩ := fallToTrain_stands hr
    exact ⟨fallen, congrArg _ bpt, fun queue => apply ▸ queue, fun _ => rts⟩

/-- A captured write is of an ACTIVE part, or of one in HANDOFF before closing (R22). -/
theorem captures_iff {c : RoleController} :
    captures c = true ↔ c.role = .active ∨ c.role = .handoff ∧ c.closing = false := by
  simp [captures]

theorem suppresses_active {c : RoleController} (h : c.role = .active) : suppresses c = false := by
  simp [suppresses, h]

/-- A part that captures goes on to drive its writes after the departure (R23, R27). -/
theorem fallToTrain_drives (role : RoleLaw s) (hc : captures s.rc = true) : suppresses (fallToTrain s).rc = false := by
  rcases captures_iff.mp hc with active | ⟨handoff, closing⟩
  · obtain ⟨-, rc, -⟩ := fallToTrain_stands (s := s) (by rw [active]; nofun)
    rw [rc]
    exact suppresses_active active
  · obtain ⟨-, rc, -⟩ := fallToTrain_returns handoff closing role.claim (role.handoff.mp handoff)
    rw [rc]
    exact suppresses_active rfl

/-! ## The end of the step -/

theorem held_of_unreported {t : State} (h : t.unreported = s.unreported) : t.bpt.held = s.bpt.held := by
  have := congrArg (fun u : State => u.bpt.held) h
  exact this

/-- The ack timer alone differs from `s`: the state on which a departure from UP begins. -/
def withAckTimer (s : State) (x : Option Nat) : State := { s with disp := { s.disp with ackTimer := x } }

/-- Each of the three events is the departure from UP. -/
theorem exec_leavesUp {c : Instr} (hu : s.link.state = .up) (noRoom : stallHasRoom s = false)
    (hc : c = .receivedClockTimeout ∨ (c = .ackTimerExpiry ∧ s.disp.ackTimer.isSome = true) ∨
      (c = .sequenceClosedRetrain ∧ closedRetrainDue s = true)) :
    ∃ x, exec c s = .next (finish s (fallToTrain (withAckTimer s x))) := by
  have falls (u : State) (h : u.link.state = .up) : toTrain .interrupted u = fallToTrain u := if_pos h
  have retrains (u : State) (h : u.link.state = .up) : retrain u = fallToTrain u := (if_pos h).trans (falls u h)
  have ends (f : State → State) (u : State) (h : f s = fallToTrain u) :
      takeEvent f s = finish s (fallToTrain u) := by rw [takeEvent_noRoom noRoom, h]
  rcases hc with rfl | ⟨rfl, timer⟩ | ⟨rfl, due⟩
  · refine ⟨s.disp.ackTimer, congrArg Host.Outcome.next (ends loseAlignment s ?_)⟩
    simp only [loseAlignment, hu]
    exact falls s hu
  · refine ⟨none, congrArg Host.Outcome.next (ends ackExpired (withAckTimer s none) ?_)⟩
    rw [ackExpired, if_pos timer]
    exact retrains (withAckTimer s none) hu
  · refine ⟨s.disp.ackTimer, congrArg Host.Outcome.next (ends closedRetrain s ?_)⟩
    rw [closedRetrain, if_pos due]
    exact retrains s hu

/-- The end of a step that has left UP: all but memory, the bus path and the postings is as the departure leaves it, and a
stalled write that is not suppressed is driven to memory (R27). -/
theorem finish_fallen {w : State} (fallen : FallsToTrain s w) (outer : w.outer = s.outer)
    (held : w.bpt.held = s.bpt.held) (queue : ∀ a n, s.bpt.held = .stall a n → w.apply.queue = [])
    (driven : ∀ a n, s.bpt.held = .stall a n → a.write = true ∧ suppresses w.rc = false) :
    Aside w (finish b w) ∧
      ((∀ a n, s.bpt.held ≠ .stall a n) → (finish b w).mem = s.mem ∧ (finish b w).bpt.held = s.bpt.held) ∧
      (∀ a n, s.bpt.held = .stall a n → s.rc.bclkQuiet = none → s.bpt.waitCount < 32 →
        (finish b w).mem = memDrive s.mem a ∧ (finish b w).bpt.held = .none) := by
  refine ⟨finish_aside fun a n stalled _ => ⟨fun _ => queue a n (held ▸ stalled), fallen.inFlight⟩, fun free => ?_,
    fun a n stalled runs count => ?_⟩
  · have same := finish_unreported b w fun a n stalled => free a n (held ▸ stalled)
    exact ⟨(mem_of_unreported same).trans (mem_of_outer outer), (held_of_unreported same).trans held⟩
  · obtain ⟨write, plain⟩ := driven a n stalled
    have same := finish_driven (b := b) (held.trans stalled) plain (.inr (queuesWrites_stallState fallen.states a))
      write (waitCount_of_outer outer ▸ count)
    rw [if_pos ((bclkQuiet_of_outer outer).trans runs), mem_of_outer outer] at same
    exact ⟨mem_of_unreported same, held_of_unreported same⟩

theorem withAckTimer_roleLaw {x : Option Nat} (h : RoleLaw s) : RoleLaw (withAckTimer s x) :=
  ⟨h.claim, h.closing, h.handoff, h.table, h.off, h.sync, h.refresh, h.tags, h.inFlight, h.apply, h.clock⟩

theorem FallsToTrain.ofTimer {x : Option Nat} {w : State} (h : FallsToTrain (withAckTimer s x) w) : FallsToTrain s w :=
  ⟨h.link, h.inFlight, h.readouts, h.ackTimer, h.syncBegin, h.syncDone, h.handover, h.queue, h.states, h.pass,
    h.outstanding, h.linkDown, h.windows, h.timing⟩

theorem dropLink_flightLaw {x : Option Nat} (h : FlightLaw s) :
    FlightLaw (dropLink .interrupted (withAckTimer s x)) :=
  ⟨h.form, h.bases, h.inUse, h.once, h.flying, h.listed⟩

end

end Sys2Proof.Machine

/-- Settles O31: the departure by role, and then the end of the step for a stalled write. -/
theorem linkLeavesUp : Obligations.LinkLeavesUp := by
  intro c s hu role ⟨stall, noRoom⟩ hc
  obtain ⟨x, exec⟩ := exec_leavesUp hu noRoom hc
  refine ⟨_, exec, ?_⟩
  have outer : (fallToTrain (withAckTimer s x)).outer = s.outer := fallToTrain_outer (withAckTimer s x)
  have role' : RoleLaw (withAckTimer s x) := withAckTimer_roleLaw role
  obtain ⟨fallen, held, queue, rts⟩ := fallToTrain_falls role'
  obtain ⟨aside, free, driven⟩ := finish_fallen (b := s) fallen.ofTimer outer held
    (fun a n h => queue (queue_empty_of_claims role' (claims_of_captures (stall a n h).2.1)))
    (fun a n h => ⟨(stall a n h).1, fallToTrain_drives role' (stall a n h).2.1⟩)
  have left := fallen.ofTimer.aside aside
  obtain ⟨m, p, q, y, i, e⟩ := aside
  refine ⟨left.link, left.inFlight, left.readouts, left.ackTimer, left.syncBegin, left.syncDone, left.handover,
    left.queue, left.states, left.pass, left.outstanding, left.linkDown.bit, fun hr closing => ?_, fun hr closing => ?_,
    fun hr => ?_, fun closing law n => ?_, left.windows, left.timing, free,
    fun a n h _ runs count => driven a n h runs count⟩ <;> rw [e]
  · obtain ⟨-, rc, tags, queue, result, running, -⟩ :=
      fallToTrain_closing (s := withAckTimer s x) hr closing (role.handoff.mp hr)
    exact ⟨rc, tags, queue, result, running⟩
  · obtain ⟨-, rc, apply, result, running, -⟩ :=
      fallToTrain_returns (s := withAckTimer s x) hr closing role.claim (role.handoff.mp hr)
    exact ⟨rc, apply, result, running⟩
  · obtain ⟨-, rc, apply, result, running, -⟩ := fallToTrain_stands (s := withAckTimer s x) hr
    exact ⟨rc, apply, result, running⟩
  · have tags := tagAt_streamEnded (dropLink_flightLaw (x := x) law) n
    rw [← rts closing] at tags
    exact tags
end

section
open Sys2Proof Sys2Proof.Machine
/-! The entry to RELEASED and the monitors of the host (R151, R154, R156, R157). -/

namespace Sys2Proof.Machine

variable {b s u w : State}

/-- An event that leaves a lawful stall, or none, is shown as it left the state (R25, R27). -/
theorem finish_keeps (h : StallLaw w) : (finish b w).unreported = w.unreported := by
  by_cases stalled : ∃ a n, w.bpt.held = .stall a n
  · obtain ⟨a, n, held⟩ := stalled
    exact finish_stands held (h a n held).2.1 (h a n held).2.2
  · exact finish_unreported b w fun a n held => stalled ⟨a, n, held⟩

/-! ## The entry to RELEASED -/

/-- Everything the entry to RELEASED changes (R138, R151, R154). -/
theorem enterReleased_eq (runs : s.rc.role = .handoff ↔ s.csu.running = some .switchover) :
    ∃ v d h c, enterReleased s = s.retired .released .unsynced v d h c ∧
      (s.rc.role = .handoff → c.result = switchoverEnds .aborted ∧ c.running = none) ∧
      ∀ a, s.bpt.held = .read a → covered s a = true → h = .port ⟨false, a, 0, 0, 0⟩ := by
  obtain ⟨v, d, h, c, e, running, -, -, read, -⟩ := retire_retired .released .unsynced s rfl
  rw [enterReleased_eq_retire, e]
  by_cases hr : s.rc.role = .handoff
  · obtain ⟨q, x, e'⟩ := endSwitchover_ends .aborted (s := s.retired .released .unsynced v d h c)
      (running.trans (runs.mp hr))
    refine ⟨v, d, h, (endSwitchover .aborted (s.retired .released .unsynced v d h c)).csu, ?_, fun _ => ?_, read⟩ <;>
      rw [e']
    · rfl
    · exact ⟨rfl, rfl⟩
  · have idle : (s.retired .released .unsynced v d h c).csu.running ≠ some .switchover :=
      fun ran => hr (runs.mpr (running.symm.trans ran))
    exact ⟨v, d, h, c, (endSwitchover_spec .aborted _).2 idle, fun handoff => absurd handoff hr, read⟩

/-- What the entry to RELEASED leaves at the end of its step, but for the stalled or held access. -/
structure Released (s t : State) : Prop where
  rc         : t.rc = { s.rc with
    role := .released, closing := false, handoff := none, claimOut := false, dual := .stopped, sync := .unsynced }
  rts        : t.rts = { tags := [], pointers := Vector.replicate 8 0, outstanding := 0 }
  inFlight   : t.disp.inFlight = []
  journals   : t.journals.queue = []
  queue      : t.apply.queue = []
  phase      : t.pass.phase = .none
  refreshing : t.pass.refreshing = false
  link       : t.link.state = s.link.state
  result     : s.rc.role = .handoff → t.csu.result = switchoverEnds .aborted ∧ t.csu.running = none
  pends      : ∀ i, Pends i s → Pends i t
  suppressed : t.bpt.suppressed = s.bpt.suppressed
  mem        : (∀ a n, s.bpt.held ≠ .stall a n) → t.mem = s.mem
  read       : ∀ x, s.bpt.held = .read x → covered s x = true → t.bpt.held = .port ⟨false, x, 0, 0, 0⟩
  waits      : ∀ a n, s.bpt.held = .stall a n → s.rc.bclkQuiet ≠ none → t.bpt.held = .port a ∧ t.mem = s.mem
  driven     : ∀ a n, s.bpt.held = .stall a n → a.write = true → s.rc.bclkQuiet = none → s.bpt.waitCount < 32 →
    t.bpt.held = .none ∧ t.mem = memDrive s.mem a

theorem finish_enterReleased (runs : s.rc.role = .handoff ↔ s.csu.running = some .switchover) :
    Released s (finish b (enterReleased s)) := by
  obtain ⟨v, d, h, c, e, result, read⟩ := enterReleased_eq runs
  have pends (i : Nat) (hi : Pends i s) : Pends i (enterReleased s) := hi.enterReleased
  have stalled {a : Access} {n : Nat} : (enterReleased s).bpt.held = .stall a n ↔ s.bpt.held = .stall a n :=
    stalled_of_outer (enterReleased_outer s)
  rw [e] at pends stalled ⊢
  obtain ⟨⟨m, p, q, x, i, same⟩, suppressed⟩ :=
    finish_ported (b := b) (s := s.retired .released .unsynced v d h c) rfl fun a n _ => ⟨fun _ => rfl, rfl⟩
  constructor
  case suppressed => exact suppressed
  case mem =>
    intro free
    have same := finish_unreported b (s.retired .released .unsynced v d h c) fun a n held => free a n (stalled.mp held)
    exact (mem_of_unreported same).trans rfl
  case read =>
    intro x held cover
    have same := finish_unreported b (s.retired .released .unsynced v d h c) fun a n held' => nomatch held.symm.trans (stalled.mp held')
    exact (held_of_unreported same).trans (read x held cover)
  case waits =>
    intro a n held quiet
    have same := finish_waits (b := b) (s := s.retired .released .unsynced v d h c) (stalled.mpr held) rfl (.inl rfl) quiet
    exact ⟨held_of_unreported same, (mem_of_unreported same).trans rfl⟩
  case driven =>
    intro a n held write quiet count
    have same := finish_driven (b := b) (s := s.retired .released .unsynced v d h c) (stalled.mpr held) rfl (.inl rfl) write count
    rw [if_pos (by exact quiet)] at same
    exact ⟨held_of_unreported same, (mem_of_unreported same).trans rfl⟩
  case pends =>
    intro i hi
    exact (pends i hi).same (by rw [same])
  all_goals rw [same]
  case result => exact result
  all_goals rfl

/-! ## The monitors -/

/-- The liveness timer has expired, with its notice raised (R156). -/
def livenessNoticed (s : State) : State := raise .hostSilent (s.onRc fun c => { c with liveness := none })

/-- BCLK has stopped, or goes on standing still (R32, R157). -/
def clockStopped (s : State) : State := s.onRc fun c => { c with bclkQuiet := some (max 100 (c.bclkQuiet.getD 0)) }

/-- A watched BCLK has stopped, with its notice raised (R157). -/
def clockNoticed (s : State) : State :=
  raise .busClockLost ((clockStopped s).onRc fun c => { c with busClock := .lost })

theorem releasable_iff {r : Role} :
    releasable r = true ↔ r = .standby ∨ r = .takeover ∨ r = .active ∨ r = .handoff := by simp [releasable]

theorem releaseIfHeld_releases (h : releasable s.rc.role = true) : releaseIfHeld s = enterReleased s := if_pos h

theorem releaseIfHeld_stays (h : ¬ releasable s.rc.role = true) : releaseIfHeld s = s := if_neg h

theorem livenessExpired_eq (h : s.rc.liveness ≠ none) :
    livenessExpired s =
      if s.csu.timing.livenessRelease then releaseIfHeld (livenessNoticed s) else livenessNoticed s :=
  if_pos (Option.isSome_iff_ne_none.mpr h)

theorem clockLost_watched (h : s.rc.busClock = .present) :
    clockLost s = releaseIfHeld (clockNoticed s) := if_pos h

theorem clockLost_unwatched (h : s.rc.busClock ≠ .present) : clockLost s = clockStopped s := if_neg h

/-- BCLK runs again (R32, R157). -/
def clockRunning (s : State) : State := s.onRc fun c => { c with busClock := edgeSeen c.busClock, bclkQuiet := none }

theorem clockReturned_free (h : ∀ a, s.bpt.held ≠ .port a) : clockReturned s = clockRunning s := by
  unfold clockReturned
  split
  · next a held => exact absurd held (h a)
  · rfl

theorem clockReturned_port {a : Access} (h : s.bpt.held = .port a) :
    clockReturned s = forward a (endHold (clockRunning s)) := by
  unfold clockReturned
  rw [h]
  rfl

end Sys2Proof.Machine

/-- Settles O49: the notice, then the entry to RELEASED where there is one, and what the end of the step makes of the
access that stands. -/
theorem hostMonitors : Obligations.HostMonitors := by
  intro s role ⟨stall, noRoom⟩ read settled released holds
  have transfer (u t : State) (h : Released u t) (epoch : u.rc.epoch = s.rc.epoch) (hr : u.rc.role = s.rc.role)
      (hl : u.link.state = s.link.state) : released t :=
    ⟨congrArg (·.role) h.rc, congrArg (·.closing) h.rc, congrArg (·.sync) h.rc, congrArg (·.claimOut) h.rc,
      congrArg (·.dual) h.rc, congrArg (·.handoff) h.rc, (congrArg (·.epoch) h.rc).trans epoch, h.rts, h.inFlight,
      h.journals, h.queue, h.phase, h.refreshing, h.link.trans hl, fun handoff => h.result (hr.trans handoff)⟩
  have settle (u t : State) (h : Released u t) (bpt : u.bpt = s.bpt) (mem : u.mem = s.mem)
      (covers : ∀ x, covered u x = covered s x) (stopped : Prop) (hq : u.rc.bclkQuiet ≠ none ↔ stopped) :
      settled stopped t := by
    refine ⟨h.suppressed.trans (congrArg _ bpt), fun free => (h.mem (bpt ▸ free)).trans mem,
      fun x held => h.read x (bpt ▸ held) ((covers x).trans (read x held)), fun a n held => ⟨fun hs => ?_, fun hs count => ?_⟩⟩
    · obtain ⟨port, same⟩ := h.waits a n (bpt ▸ held) (hq.mpr hs)
      exact ⟨port, same.trans mem⟩
    · have driven := h.driven a n (bpt ▸ held) (stall a n held).1 (by simpa using mt hq.mp hs) (bpt ▸ count)
      rwa [mem] at driven
  refine ⟨fun timer mode holds' => ?_, fun timer other => ?_, fun watched holds' => ?_, fun watched other => ?_,
    fun watched => ?_, fun free => ?_, fun a port count => ?_⟩
  · have event : livenessExpired s = enterReleased (livenessNoticed s) := by
      rw [livenessExpired_eq timer, if_pos mode, releaseIfHeld_releases (s := livenessNoticed s) (releasable_iff.mpr holds')]
    have entered := finish_enterReleased (b := s) (s := livenessNoticed s) role.handoff
    refine ⟨_, congrArg Host.Outcome.next (takeEvent_noRoom noRoom), ?_⟩
    rw [event]
    exact ⟨transfer _ _ entered rfl rfl rfl, settle _ _ entered rfl rfl (fun _ => rfl) _ Iff.rfl,
      congrArg (·.liveness) entered.rc, (entered.pends _ (pends_raised _ _)).bit⟩
  · have event : livenessExpired s = livenessNoticed s := by
      rw [livenessExpired_eq timer]
      rcases other with mode | other
      · rw [mode]
        rfl
      · rw [releaseIfHeld_stays (s := livenessNoticed s) (mt releasable_iff.mp other), ite_self]
    refine ⟨_, congrArg Host.Outcome.next (takeEvent_noRoom noRoom), ?_⟩
    rw [event]
    exact finish_keeps (w := livenessNoticed s) stall
  · have event : clockLost s = enterReleased (clockNoticed s) := by
      rw [clockLost_watched watched, releaseIfHeld_releases (s := clockNoticed s) (releasable_iff.mpr holds')]
    have entered := finish_enterReleased (b := s) (s := clockNoticed s) role.handoff
    refine ⟨_, congrArg Host.Outcome.next (takeEvent_noRoom noRoom), ?_⟩
    rw [event]
    exact ⟨transfer _ _ entered rfl rfl rfl,
      settle _ _ entered rfl rfl (fun _ => rfl) _ (iff_true_intro (Option.some_ne_none _)),
      congrArg (·.busClock) entered.rc, congrArg (·.bclkQuiet) entered.rc, (entered.pends _ (pends_raised _ _)).bit⟩
  · have event : clockLost s = clockNoticed s := by
      rw [clockLost_watched watched, releaseIfHeld_stays (s := clockNoticed s) (mt releasable_iff.mp other)]
    refine ⟨_, congrArg Host.Outcome.next (takeEvent_noRoom noRoom), ?_⟩
    rw [event]
    exact finish_keeps (w := clockNoticed s) stall
  · refine ⟨_, congrArg Host.Outcome.next (takeEvent_noRoom noRoom), ?_⟩
    rw [clockLost_unwatched watched]
    exact finish_keeps (w := clockStopped s) stall
  · refine ⟨_, rfl, ?_⟩
    rw [close_unreported, clockReturned_free free]
    rfl
  · refine ⟨_, rfl, ?_⟩
    rw [close_unreported, clockReturned_port port, forward_granted (s := endHold (clockRunning s)) rfl count,
      countUpstream_unreported, driveAccess_unreported]
    split <;> rfl
end

section
open Sys2Proof Sys2Proof.Machine
/-! Promotion, takeover and the two takeover conditions (R118, R119, R138, R141, R142, R144, R145). -/

namespace Sys2Proof.Machine

variable {b s t w : State}

/-! ## Promotion -/

/-- The start of a full sync reaches the tags, the journal states, SYNC_BEGIN's arm and the sync pass, and not G (R120). -/
theorem startSync_spec (s : State) :
    ∃ r j p, startSync s =
        { s with rts := r, journals := j, disp := { s.disp with syncBeginArm := true }, pass := p } ∧
      p.gen = s.pass.gen := by
  have marks (u : State) : ∃ r, clearMarks u = { u with rts := r } := ⟨_, rfl⟩
  have copies (u : State) : ∃ j, copyInStep u = { u with journals := j } := ⟨_, rfl⟩
  obtain ⟨r, hr⟩ := marks s
  obtain ⟨j, hj⟩ := copies (clearMarks s)
  refine ⟨r, j, { s.pass with phase := .passing, syncPos := 0, syncClock := 0, awaited := .none }, ?_, rfl⟩
  rw [startSync, restartSync, hj, hr]
  rfl

/-- The pairing decision reaches the tags, the journal states, the Dispatcher's arms and the passes, and not G (R119). -/
theorem decideIfPaired_spec (s : State) :
    ∃ r j d p, decideIfPaired s = { s with rts := r, journals := j, disp := d, pass := p } ∧
      p.gen = s.pass.gen ∧ d.inFlight = s.disp.inFlight := by
  have refresh (u : State) : ∃ p, beginRefresh u = { u with pass := p } ∧ p.gen = u.pass.gen := ⟨_, rfl, rfl⟩
  unfold decideIfPaired
  split
  · unfold pairingDecision
    split
    · obtain ⟨p, hp, hg⟩ := refresh s
      exact ⟨s.rts, s.journals, s.disp, p, hp, hg, rfl⟩
    · obtain ⟨r, j, p, h, hg⟩ := startSync_spec s
      obtain ⟨p', hp, hg'⟩ := refresh (startSync s)
      rw [h] at hp hg'
      exact ⟨r, j, { s.disp with syncBeginArm := true }, p', by rw [h]; exact hp, hg'.trans hg, rfl⟩
  · exact ⟨s.rts, s.journals, s.disp, s.pass, rfl, rfl, rfl⟩

/-- A part promoted to ACTIVE, with its tags `r`, its journal side `j`, its Dispatcher `d`, its passes `p` and its Control
and Status Unit `c`. -/
def State.promoted (r : Rts) (j : Journals) (d : Dispatcher) (p : PassEngine) (c : Csu) (s : State) : State :=
  { s with
    rts := r, journals := j, disp := d, pass := p, csu := c
    rc := { s.rc with
      role := .active, claimOut := true, dual := dualAfter s.rc.claimIn s.rc.dual
      epoch := maxEpoch s.rc.epoch s.link.peer.epoch + 1 } }

/-- A change of role posts status word 0, whatever it then holds (R138, R166). -/
theorem setRole_posts (r : Role) (s : State) :
    ∃ q, setRole r s =
        { s with
          rc := { s.rc with
            role := r, claimOut := claims r, dual := dualAfter (claims r && s.rc.claimIn) s.rc.dual }
          csu := { s.csu with pendingSet := s.csu.pendingSet ||| Notice.roleChanged.mask, postQueue := q } } ∧
      pendingValue 0 q ≠ none := by
  refine ⟨postInto 0 (statusWord (setRole r s) 0) s.csu.postQueue, setRole_spec r s, ?_⟩
  rw [pendingValue_postInto, if_pos rfl]
  exact Option.some_ne_none _

/-- The change of role of a promotion, with the posting queue `q` it leaves. -/
def State.crowned (q : List Posting) (s : State) : State :=
  { s with
    rc := { s.rc with
      role := .active, claimOut := true, dual := dualAfter s.rc.claimIn s.rc.dual
      epoch := maxEpoch s.rc.epoch s.link.peer.epoch + 1 }
    csu := { s.csu with pendingSet := s.csu.pendingSet ||| Notice.roleChanged.mask, postQueue := q } }

/-- Everything promotion changes (R118, R138, R145). -/
theorem promote_eq (s : State) :
    ∃ r j d p c, promote s = s.promoted r j d p c ∧ p.gen = s.pass.gen ∧ d.inFlight = [] ∧
      c.discard = s.csu.discard ∧ c.running = s.csu.running ∧ c.result = s.csu.result ∧ c.timing = s.csu.timing ∧
      pendingValue 0 c.postQueue ≠ none := by
  obtain ⟨q, role, posted⟩ :=
    setRole_posts .active (s.onRc fun c => { c with epoch := maxEpoch c.epoch s.link.peer.epoch + 1 })
  have crowned : promote s = decideIfPaired (clearReplication (s.crowned q)) := by
    rw [promote, role]
    rfl
  obtain ⟨v, p, e, -⟩ := clearReplication_spec (s.crowned q)
  obtain ⟨r, j, d, p', e', gen, flight⟩ := decideIfPaired_spec (clearReplication (s.crowned q))
  rw [e] at e' gen flight
  refine ⟨r, j, d, p', { s.csu with pendingSet := p, postQueue := q }, ?_, gen, flight, rfl, rfl, rfl, rfl, posted⟩
  rw [crowned, e, e']
  rfl

/-- A drained part that takes over is promoted at once (R144). -/
theorem takeOverNow_drained (h : s.apply.queue = []) : takeOverNow s = promote (setRole .takeover s) :=
  if_pos ⟨rfl, h⟩

theorem takeOverNow_waits (h : s.apply.queue ≠ []) : takeOverNow s = setRole .takeover s :=
  if_neg fun hc => h hc.2

/-- Everything the takeover of a drained part changes. -/
theorem takeOverNow_eq (h : s.apply.queue = []) :
    ∃ r j d p c, takeOverNow s =
        { s with
          rts := r, journals := j, disp := d, pass := p, csu := c
          rc := { s.rc with
            role := .active, claimOut := true, dual := if s.rc.claimIn then .running 0 else .stopped
            epoch := maxEpoch s.rc.epoch s.link.peer.epoch + 1 } } ∧
      d.inFlight = [] ∧ pendingValue 0 c.postQueue ≠ none := by
  obtain ⟨r, j, d, p, c, e, -, flight, -, -, -, -, posted⟩ := promote_eq (setRole .takeover s)
  refine ⟨r, j, d, p, c, ?_, flight, posted⟩
  rw [takeOverNow_drained h, e, setRole_spec]
  rfl

/-! ## The two conditions -/

theorem peerSilent_iff :
    peerSilent s = true ↔
      s.rc.role = .standby ∧ s.link.view = .lost ∧ s.csu.timing.takeoverAuto = true ∧ s.rc.claimIn = false := by
  simp [peerSilent, and_assoc]

theorem noActive_iff :
    noActive s = true ↔
      s.rc.role = .standby ∧ s.link.view = .paired ∧
        s.link.peer.role ≠ .active ∧ s.link.peer.role ≠ .handoff ∧ s.link.peer.role ≠ .takeover := by
  simp [noActive, and_assoc]

theorem judgeLost_none (h : peerSilent s = false) : judgeLost s = s := if_neg (by simp [h])

/-- With neither condition true nothing is taken over (R141, R142). -/
theorem judgeTakeover_none (hl : peerSilent s = false) (hn : noActive s = false) : judgeTakeover b s = s := by
  rw [judgeTakeover, judgeLost_none hl]
  simp [judgeNoActive, noActiveJudged, hn]

end Sys2Proof.Machine
end

section
open Sys2Proof Sys2Proof.Machine
/-! Two claims: the demotion of unit B, and what a HELLO from a claiming peer brings (R84, R85, R138, R152). -/

namespace Sys2Proof.Machine

variable {b s t u w : State}

/-! ## The demotion of unit B -/

/-- The Role Controller of a part demoted after a dual claim, with epoch `e`. -/
def RoleController.demoted (e : Epoch) (c : RoleController) : RoleController :=
  { c with
    role := .standby, closing := false, handoff := none, sync := .unsynced, claimOut := false, dual := .stopped
    epoch := e }

/-- The end of a step that leaves the part suppressing: a stalled write is dropped and counted, and memory stands (R23,
R27). -/
theorem finish_withheld (hs : suppresses w.rc = true) (outer : w.outer = s.outer) :
    Aside w (finish b w) ∧ (finish b w).mem = s.mem ∧
      (∀ a n, s.bpt.held = .stall a n →
        (finish b w).bpt.held = .none ∧ (finish b w).bpt.suppressed = saturatingInc s.bpt.suppressed) ∧
      ((∀ a n, s.bpt.held ≠ .stall a n) → (finish b w).bpt.suppressed = s.bpt.suppressed) := by
  have stalled {a : Access} {n : Nat} : w.bpt.held = .stall a n ↔ s.bpt.held = .stall a n := stalled_of_outer outer
  have suppressed := suppressed_of_outer outer
  have view (t : State) (h : t.unreported = w.unreported) : t.bpt.suppressed = w.bpt.suppressed := by
    have := congrArg (fun u : State => u.bpt.suppressed) h
    exact this
  have dropped {a : Access} {n : Nat} (held : s.bpt.held = .stall a n) :
      (finish b w).unreported = (countSuppressed (endHold w)).unreported :=
    finish_suppressed (stalled.mpr held) hs
  refine ⟨finish_aside fun _ _ _ hs' => absurd (hs.symm.trans hs') (by decide), ?_, fun a n held => ⟨?_, ?_⟩,
    fun free => ?_⟩
  · by_cases h : ∃ a n, s.bpt.held = .stall a n
    · obtain ⟨a, n, held⟩ := h
      have same : (finish b w).mem = w.mem := (mem_of_unreported (dropped held)).trans rfl
      exact same.trans (mem_of_outer outer)
    · have same := finish_unreported b w fun a n held => h ⟨a, n, stalled.mp held⟩
      exact (mem_of_unreported same).trans (mem_of_outer outer)
  · exact held_of_unreported (dropped held)
  · rw [← suppressed]
    have := congrArg (fun u : State => u.bpt.suppressed) (dropped held)
    exact this
  · exact (view _ (finish_unreported b w fun a n held => free a n (stalled.mp held))).trans suppressed

/-- Unit B has yielded: the state before the end of the step, with the link `l`, the epoch `e`, and the result `r` of a
SWITCHOVER that ran. -/
structure Yields (s w : State) (l : Link) (e : Epoch) (r : ResultCode) : Prop where
  link       : w.link = l
  rc         : w.rc = s.rc.demoted e
  dual       : Pends Notice.dualClaim.bit w
  outer      : w.outer = s.outer
  rts        : w.rts = { tags := [], pointers := Vector.replicate 8 0, outstanding := 0 }
  inFlight   : w.disp.inFlight = []
  journals   : w.journals.queue = []
  queue      : w.apply.queue = []
  phase      : w.pass.phase = .none
  refreshing : w.pass.refreshing = false
  timing     : w.csu.timing = s.csu.timing
  ended      : s.rc.role = .handoff → w.csu.running = none ∧ w.csu.result = switchoverEnds r

/-- What the end of the step shows of it. -/
theorem Yields.shown {l : Link} {e : Epoch} {r : ResultCode} (h : Yields s w l e r) :
    (finish b w).link = l ∧ (finish b w).rc = s.rc.demoted e ∧
      (finish b w).csu.pendingSet.getLsbD Notice.dualClaim.bit = true ∧
      ((finish b w).mem = s.mem ∧
        (∀ a n, s.bpt.held = .stall a n →
          (finish b w).bpt.held = .none ∧ (finish b w).bpt.suppressed = saturatingInc s.bpt.suppressed) ∧
        ((∀ a n, s.bpt.held ≠ .stall a n) → (finish b w).bpt.suppressed = s.bpt.suppressed)) ∧
      (finish b w).rts = { tags := [], pointers := Vector.replicate 8 0, outstanding := 0 } ∧
      (finish b w).disp.inFlight = [] ∧ (finish b w).journals.queue = [] ∧ (finish b w).apply.queue = [] ∧
      (finish b w).pass.phase = .none ∧ (finish b w).pass.refreshing = false ∧
      (s.rc.role = .handoff →
        (finish b w).csu.running = none ∧ (finish b w).csu.result = switchoverEnds r) := by
  obtain ⟨⟨m, p, q, x, i, same⟩, withheld⟩ := finish_withheld (b := b) (w := w) (by rw [h.rc]; rfl) h.outer
  refine ⟨?_, ?_, ?_, withheld, ?_, ?_, ?_, ?_, ?_, ?_, ?_⟩ <;> rw [same]
  exacts [h.link, h.rc, h.dual.bit, h.rts, h.inFlight, h.journals, h.queue, h.phase, h.refreshing, h.ended]

/-- Everything the demotion of unit B changes (R138, R151, R152). -/
theorem demoteDual_eq (s : State) :
    ∃ v d h c, demoteDual s =
        (s.retired .standby .unsynced v d h c).onRc
          (fun r => { r with epoch := maxEpoch s.rc.epoch s.link.peer.epoch }) ∧
      c.timing = s.csu.timing ∧ (s.csu.running = some .switchover → c.running = none ∧ c.result = switchoverEnds .peerActive) ∧
      (s.csu.running ≠ some .switchover → c.running = s.csu.running ∧ c.result = s.csu.result) := by
  obtain ⟨v, d, h, c, e, running, result, timing, -⟩ := retire_retired .standby .unsynced s rfl
  have epoch : adoptEpoch (demote .unsynced s) =
      (s.retired .standby .unsynced v d h c).onRc
        (fun r => { r with epoch := maxEpoch s.rc.epoch s.link.peer.epoch }) := by
    rw [demote_eq_retire, e]
    rfl
  rw [demoteDual, epoch]
  by_cases runs : s.csu.running = some .switchover
  · obtain ⟨q, x, e'⟩ := endSwitchover_ends .peerActive
      (s := (s.retired .standby .unsynced v d h c).onRc
        (fun r => { r with epoch := maxEpoch s.rc.epoch s.link.peer.epoch })) (running.trans runs)
    refine ⟨v, d, h, (endSwitchover .peerActive ((s.retired .standby .unsynced v d h c).onRc
        (fun r => { r with epoch := maxEpoch s.rc.epoch s.link.peer.epoch }))).csu, ?_, ?_, fun _ => ?_,
      fun idle => absurd runs idle⟩ <;> rw [e']
    · rfl
    · exact timing
    · exact ⟨rfl, rfl⟩
  · refine ⟨v, d, h, c, (endSwitchover_spec .peerActive _).2 ?_, timing, fun ran => absurd ran runs, fun _ => ⟨running, result⟩⟩
    exact fun ran => runs (running.symm.trans ran)

/-- Unit B yields from `u`, which stands in the step of `s`. -/
theorem demoteDual_yields {l : Link} {e : Epoch} {r : ResultCode} (dual : Pends Notice.dualClaim.bit u)
    (outer : u.outer = s.outer) (rc : ∀ x, u.rc.demoted x = s.rc.demoted x)
    (epoch : maxEpoch u.rc.epoch u.link.peer.epoch = maxEpoch s.rc.epoch e)
    (link : { u.link with seen := u.link.seen || decide (u.link.state = .hello ∧ u.link.helloPassed = true) } = l)
    (timing : u.csu.timing = s.csu.timing)
    (runs : s.rc.role = .handoff →
      u.csu.running = some .switchover ∧ r = .peerActive ∨ u.csu.running = none ∧ u.csu.result = switchoverEnds r) :
    Yields s (demoteDual u) l (maxEpoch s.rc.epoch e) r := by
  obtain ⟨v, d, h, c, eq, same, ended, idle⟩ := demoteDual_eq u
  have outer' : (demoteDual u).outer = s.outer := (demoteDual_outer u).trans outer
  have dual' : Pends Notice.dualClaim.bit (demoteDual u) := dual.demoteDual
  rw [eq] at outer' dual' ⊢
  refine ⟨link, epoch ▸ rc _, dual', outer', rfl, rfl, rfl, rfl, rfl, rfl, same.trans timing,
    fun handoff => ?_⟩
  rcases runs handoff with ⟨ran, rfl⟩ | ⟨stopped, result⟩
  · exact ended ran
  · obtain ⟨running, kept⟩ := idle (by rw [stopped]; nofun)
    exact ⟨running.trans stopped, kept.trans result⟩

/-! ## The move to UP -/

/-- The link at the move to UP (R85). -/
def Link.risen (l : Link) : Link :=
  { l with
    state := .up, nextSeq := 0, expected := 0, nakPending := false, ackWaiting := false, nakWaiting := false
    view := .paired, helloWaiting := false }

theorem decisionHolds_iff :
    decisionHolds s = true ↔
      (s.link.state = .up ∧ s.link.peer.role = .standby) ∧ (s.rc.role = .active ∨ s.rc.role = .handoff) := by
  rw [decisionHolds, Bool.and_eq_true, decide_eq_true_iff, decide_eq_true_iff]

/-- The move to UP where no pairing decision follows (R85, R118). -/
theorem goUp_eq (h : s.rc.role = .standby ∨ s.link.peer.role ≠ .standby) :
    goUp s =
      { s with
        link := s.link.risen, apply := { s.apply with applied := 0, lastAck := 0 }
        disp := { s.disp with seqClosed := false }
        csu := { s.csu with pendingSet := s.csu.pendingSet ||| Notice.linkUp.mask } } := by
  refine if_neg fun holds => ?_
  obtain ⟨⟨-, peer⟩, claiming⟩ := decisionHolds_iff.mp holds
  rcases h with standby | claims
  · rcases claiming with active | handoff
    · exact nomatch standby.symm.trans active
    · exact nomatch standby.symm.trans handoff
  · exact claims peer

theorem tryUp_goes (hs : s.link.state = .hello) (hin : s.link.helloSeenIn = true) (hout : s.link.helloSeenOut = true) :
    tryUp s = goUp s := if_pos ⟨hs, hin, hout⟩

theorem tryUp_waits (h : ¬ (s.link.helloSeenOut = true ∧ s.link.helloSeenIn = true)) : tryUp s = s :=
  if_neg fun up => h ⟨up.2.2, up.2.1⟩

/-- A seen flag that is set stands (R83). -/
theorem settleSeen_seen (h : s.link.seen = true) : settleSeen s = s := by
  unfold settleSeen
  split
  · rw [State.onLink, ← h]
  · rfl

namespace Yields
variable {l : Link} {e : Epoch} {r : ResultCode}

/-- A part that has yielded moves to UP (R85). -/
theorem rises (h : Yields s w l e r) : Yields s (goUp w) l.risen e r := by
  rw [goUp_eq (.inl (congrArg (·.role) h.rc))]
  exact ⟨congrArg Link.risen h.link, h.rc, (h.dual.raise (n := .linkUp) (.inl rfl)).same rfl, h.outer, h.rts, h.inFlight, h.journals, h.queue, h.phase, h.refreshing,
    h.timing, h.ended⟩

/-- With a peer that claims, or a view other than PAIRED, a part that has yielded takes nothing over but a silent peer's
place (R141, R142). -/
theorem not_judged (h : Yields s w l e r) (hl : peerSilent w = false)
    (hn : l.view = .paired → l.peer.role = .active ∨ l.peer.role = .handoff ∨ l.peer.role = .takeover) :
    judgeTakeover b w = w := by
  refine judgeTakeover_none hl (Bool.eq_false_iff.mpr fun holds => ?_)
  obtain ⟨-, view, active, handoff, takeover⟩ := noActive_iff.mp holds
  rw [h.link] at view active handoff takeover
  rcases hn view with x | x | x
  exacts [active x, handoff x, takeover x]

end Yields

end Sys2Proof.Machine
end

section
open Sys2Proof Sys2Proof.Machine
/-! A HELLO from a claiming peer at a claiming part (R84, R85, R94, R152). -/

namespace Sys2Proof.Machine

variable {b s t u w : State} {h : HelloFrame}

/-- The state with the link `l`. -/
def State.linked (l : Link) (s : State) : State := { s with link := l }

/-- The link with the frame counted and the record of the HELLO entered. -/
def State.entered (h : HelloFrame) (s : State) : Link := { s.frameCounted with peer := helloRecord h }

/-- The link behind a HELLO that has passed its check (R83, R84). -/
def Link.checked (h : HelloFrame) (l : Link) : Link :=
  { l with helloPassed := true, helloSeenIn := l.helloSeenIn || h.seen }

/-- The link that has met an incompatible HELLO (R84). -/
def Link.refused (l : Link) : Link := { l with state := .incompatible, helloWaiting := false, sending := none }

theorem compatible_iff : compatible h s = true ↔ h.geometry = tableGeometry s.windows ∧ h.unit ≠ s.rc.unit := by
  rw [compatible, decide_eq_true_iff]

theorem not_standby_of_claims {r : Role} (h : claims r = true) : r ≠ .standby := by
  rintro rfl
  cases h

theorem judgeHelloClaim_claims (hp : claims h.role = true) (hl : claims s.rc.role = true) :
    judgeHelloClaim h s = dualClaimDetected s := if_pos (by rw [hp, hl]; rfl)

theorem dualClaimDetected_stands (hu : s.rc.unit = .a) : dualClaimDetected s = raise .dualClaim s :=
  if_neg (by rw [hu]; nofun)

theorem dualClaimDetected_yields (hu : s.rc.unit = .b) : dualClaimDetected s = demoteDual (raise .dualClaim s) :=
  if_pos hu

/-! ## In HELLO -/

theorem receiveHello_hello (hs : s.link.state = .hello) (hi : s.link.incoming = none) :
    receiveHello h s = judgeTakeover s (helloInHello h (s.linked s.frameCounted)) := by
  have checks : checksFrames s.link = true := by rw [checksFrames, hs]
  rw [receiveHello, if_pos checks, takeHello, countFrame_between hi, hs]
  rfl

theorem helloInHello_refused (hm : ¬ compatible h s = true) (hp : claims h.role = true) (hl : claims s.rc.role = true) :
    helloInHello h s = dualClaimDetected (raise .incompatible (s.linked s.link.refused)) :=
  (if_neg hm).trans (judgeHelloClaim_claims (s := goIncompatible s) hp hl)

/-- A claiming part only enters the record of a HELLO in HELLO (R94, R137). -/
theorem updatePeer_hello {p : PeerRecord} (hl : claims s.rc.role = true) (hs : s.link.state ≠ .up) :
    updatePeer p s = s.linked { s.link with peer := p } := by
  rw [updatePeer, if_neg hs, if_neg (not_standby_of_claims hl)]
  rfl

theorem helloInHello_checked (hm : compatible h s = true) (hp : claims h.role = true) (hl : claims s.rc.role = true)
    (hs : s.link.state ≠ .up) :
    helloInHello h s = tryUp (settleSeen (dualClaimDetected
      (s.linked (Link.checked h { s.link with peer := helloRecord h })))) := by
  rw [helloInHello, if_pos hm, updatePeer_hello hl hs]
  exact congrArg (tryUp <| settleSeen ·)
    (judgeHelloClaim_claims (s := s.linked (Link.checked h { s.link with peer := helloRecord h })) hp hl)

/-- With an empty apply queue the seen flag is set once the check is passed (R83). -/
theorem settleSeen_passed (hs : s.link.state = .hello) (hc : s.link.helloPassed = true) (hq : s.apply.queue = []) :
    settleSeen s = s.linked { s.link with seen := true } := if_pos ⟨hs, hc, hq⟩

/-! ## In UP -/

theorem receiveHello_up (hs : s.link.state = .up) (hi : s.link.incoming = none) (hl : claims s.rc.role = true) :
    receiveHello h s =
      judgeTakeover s (judgeHelloClaim h (peerRoleChanged s.link.peer.role (s.linked (s.entered h)))) := by
  have checks : checksFrames s.link = true := by rw [checksFrames, hs]
  have update : updatePeer (helloRecord h) (s.linked s.frameCounted) =
      peerRoleChanged s.link.peer.role (s.linked (s.entered h)) := by
    rw [updatePeer, if_pos (by exact hs), if_neg (by exact not_standby_of_claims hl)]
    rfl
  rw [receiveHello, if_pos checks, takeHello, countFrame_between hi, hs]
  exact congrArg (judgeTakeover s <| judgeHelloClaim h ·) update

/-- The sequence stream ends where the peer leaves STANDBY (R69). -/
def endStreamIf (old : Role) (s : State) : State :=
  if old = .standby then stopRefresh (abortSync (emptyGoingBack s)) else s

/-- Beside a peer that claims, an ACTIVE part ends at most its sequence stream (R69). -/
theorem peerRoleChanged_active (old : Role) (hr : s.rc.role = .active) (hp : claims s.link.peer.role = true) :
    peerRoleChanged old s = endStreamIf old s := by
  have apart : s.rc.role ≠ .handoff := by rw [hr]; nofun
  have peer : s.link.peer.role ≠ .standby := not_standby_of_claims hp
  rw [peerRoleChanged, if_neg (fun closing => apart closing.1), endStreamIf]
  by_cases ho : old = .standby
  · rw [if_pos ⟨ho, peer⟩, if_neg (fun returns => apart returns.1), if_pos ho]
  · rw [if_neg (fun leaves => ho leaves.1), if_neg (fun enters => peer enters.2), if_neg (fun closing => apart closing.1),
      if_neg ho]

/-- In closing a peer in HANDOFF changes nothing of the handoff (R150; log entry 12). -/
theorem peerRoleChanged_handoff (old : Role) (hc : s.rc.closing = true) (hp : s.link.peer.role = .handoff) :
    peerRoleChanged old s = endStreamIf old s := by
  rw [peerRoleChanged, endStreamIf]
  simp only [hp, hc]
  by_cases ho : old = .standby <;> simp [ho]

/-- In closing a peer in ACTIVE ends the handoff with success (R148). -/
theorem peerRoleChanged_succeeds (old : Role) (hr : s.rc.role = .handoff) (hc : s.rc.closing = true)
    (hp : s.link.peer.role = .active) : peerRoleChanged old s = handoffSucceeds s := if_pos ⟨hr, hc, .inr hp⟩

/-- Before closing a peer that leaves STANDBY for a claim returns the part to ACTIVE (R150). -/
theorem peerRoleChanged_returns (hr : s.rc.role = .handoff) (hc : s.rc.closing = false)
    (hp : s.link.peer.role ≠ .standby) :
    peerRoleChanged .standby s = handoffReturns .notPaired (stopRefresh (abortSync (emptyGoingBack s))) := by
  rw [peerRoleChanged, if_neg (by rw [hc]; simp), if_pos ⟨rfl, hp⟩, if_pos ⟨hr, .inl hc⟩]

/-- What the end of the sequence stream leaves. -/
structure StreamEnds (s u : State) : Prop where
  link    : u.link = s.link
  rc      : u.rc = s.rc
  outer   : u.outer = s.outer
  bpt     : u.bpt = s.bpt
  apply   : u.apply = s.apply
  windows : u.windows = s.windows
  running : u.csu.running = s.csu.running
  result  : u.csu.result = s.csu.result
  timing  : u.csu.timing = s.csu.timing

theorem streamEnds (s : State) : StreamEnds s (stopRefresh (abortSync (emptyGoingBack s))) := by
  obtain ⟨x, v, p, e, -⟩ := streamEnded_spec s
  rw [e]
  exact ⟨rfl, rfl, rfl, rfl, rfl, rfl, rfl, rfl, rfl⟩

theorem endStreamIf_ends (old : Role) (s : State) : StreamEnds s (endStreamIf old s) := by
  unfold endStreamIf
  split
  · exact streamEnds s
  · exact ⟨rfl, rfl, rfl, rfl, rfl, rfl, rfl, rfl, rfl⟩

end Sys2Proof.Machine
end

section
open Sys2Proof Sys2Proof.Machine
/-! Two claims and the timers of the Role Controller (R134, R138, R141, R149, R152). -/

namespace Sys2Proof.Machine

variable {b s t u w : State} {h : HelloFrame}

/-! ## A posting pending at the end of a step (R166) -/

theorem pending_close {x : Nat} (h : pendingValue x s.csu.postQueue ≠ none) :
    pendingValue x (close b s).csu.postQueue ≠ none := by
  rw [pendingValue_close]
  split
  · exact Option.some_ne_none _
  · exact h

theorem driveAccess_postQueue (a : Access) (s : State) : (driveAccess a s).csu.postQueue = s.csu.postQueue := by
  unfold driveAccess
  split <;> rfl

theorem forward_postQueue (a : Access) (h : s.bpt.waitCount < 32) : (forward a s).csu.postQueue = s.csu.postQueue := by
  by_cases quiet : s.rc.bclkQuiet = none
  · rw [forward_granted quiet h]
    exact driveAccess_postQueue a s
  · rw [forward_stopped quiet]
    rfl

theorem resolveStall_postQueue (h : s.bpt.waitCount < 32) : (resolveStall s).csu.postQueue = s.csu.postQueue := by
  unfold resolveStall
  split
  · split
    · rfl
    · split
      · rfl
      · exact forward_postQueue (s := endHold s) _ h
  · rfl

/-- Status word 0, once pending, is pending at its present value at the end of the step. -/
theorem finish_posted (h : pendingValue 0 w.csu.postQueue ≠ none) (count : w.bpt.waitCount < 32) :
    pendingValue 0 (finish b w).csu.postQueue = some (statusWord (finish b w) 0) := by
  have resolved := resolveStall_postQueue (close_waitCount_lt b w count)
  have stands : pendingValue 0 (finish b w).csu.postQueue ≠ none :=
    pending_close (by rw [resolved]; exact pending_close h)
  obtain ⟨v, hv⟩ := Option.ne_none_iff_exists'.mp stands
  have value := close_posted (close b w) (resolveStall (close b w)) 0 (by decide) v hv
  exact hv.trans (congrArg some value)

/-! ## The end of the step -/

/-- Nothing is left to apply or to send behind a stall. -/
theorem finish_emptied (hq : applies w.rc.role = true → w.apply.queue = []) (hf : w.disp.inFlight = []) : Aside w (finish b w) :=
  finish_aside fun _ _ _ _ => ⟨hq, hf⟩

theorem exec_hello (noRoom : stallHasRoom s = false) (event : receiveHello h s = w) :
    exec (.helloReceived h) s = .next (finish s w) :=
  congrArg Host.Outcome.next ((takeEvent_noRoom noRoom).trans (congrArg (finish s) event))

/-! ## CLAIM_IN -/

/-- CLAIM_IN at its new level, before the takeover condition is judged (R134, R152). -/
theorem claimed_eq (claim : ClaimLaw s) {v : Bool} (hv : v ≠ s.rc.claimIn) :
    s.onRc (fun c => settleDual { c with claimIn := v }) =
      { s with rc := { s.rc with
        claimIn := v
        dual := if (s.rc.role = .active ∨ s.rc.role = .handoff) ∧ v = true then .running 0 else .stopped } } := by
  have dual : dualAfter (claims s.rc.role && v) s.rc.dual =
      if (s.rc.role = .active ∨ s.rc.role = .handoff) ∧ v = true then .running 0 else .stopped := by
    cases v with
    | false => simp [dualAfter]
    | true =>
      have absent : s.rc.claimIn = false := by simpa using hv.symm
      have stopped : s.rc.dual = .stopped := claim.2.mpr (by simp [absent])
      simp [dualAfter, stopped, claims]
  rw [← dual]
  rfl

theorem claims_of_dual {n : Nat} (claim : ClaimLaw s) (hd : s.rc.dual = .running n) :
    claims s.rc.role = true ∧ s.rc.claimIn = true := by
  have both : (claims s.rc.role && s.rc.claimIn) ≠ false := fun missing => nomatch hd.symm.trans (claim.2.mpr missing)
  simpa using both

theorem dualExpired_running {n : Nat} (hd : s.rc.dual = .running n) :
    dualExpired s = judgeTakeover s (dualClaimDetected (s.onRc fun c => { c with dual := .expired })) := by
  rw [dualExpired, hd]

/-! ## The silent peer of a demoted part -/

theorem maxEpoch_again (a c : Epoch) : maxEpoch (maxEpoch a c) c = maxEpoch a c := by
  unfold maxEpoch
  split <;> simp_all

theorem setRole_pends (r : Role) (s : State) : Pends Notice.roleChanged.bit (setRole r s) :=
  (pends_raised .roleChanged s).same rfl

/-- A demoted part whose peer is silent takes over again in the same step (R141). -/
theorem takesOver_silent {l : Link} {e : Epoch} {r : ResultCode} (y : Yields s w l (maxEpoch s.rc.epoch e) r)
    (silent : peerSilent w = true) (peer : l.peer.epoch = e) (count : s.bpt.waitCount < 32) :
    (finish b (judgeTakeover b w)).rc.role = .active ∧ (finish b (judgeTakeover b w)).rc.claimOut = true ∧
      (finish b (judgeTakeover b w)).rc.epoch = maxEpoch s.rc.epoch e + 1 ∧
      (finish b (judgeTakeover b w)).csu.pendingSet.getLsbD Notice.roleChanged.bit = true ∧
      pendingValue 0 (finish b (judgeTakeover b w)).csu.postQueue =
        some (statusWord (finish b (judgeTakeover b w)) 0) := by
  obtain ⟨r', j, d, p, c, eq, flight, posted⟩ := takeOverNow_eq y.queue
  have event : judgeTakeover b w = takeOverNow w := by
    have lost : judgeLost w = takeOverNow w := if_pos silent
    rw [judgeTakeover, lost]
    have active : (takeOverNow w).rc.role ≠ .standby := by rw [eq]; nofun
    simp [judgeNoActive, noActiveJudged, noActive, active]
  have raised : Pends Notice.roleChanged.bit (takeOverNow w) := (setRole_pends .takeover w).promoteIfDrained
  have waits : (takeOverNow w).bpt.waitCount < 32 := by
    rw [waitCount_of_outer ((takeOverNow_outer w).trans y.outer)]
    exact count
  have pending : pendingValue 0 (takeOverNow w).csu.postQueue ≠ none := by rw [eq]; exact posted
  have word := finish_posted (b := b) pending waits
  obtain ⟨m, p', q, x, i, same⟩ := finish_emptied (b := b) (w := takeOverNow w) (fun _ => by rw [eq]; exact y.queue)
    (by rw [eq]; exact flight)
  rw [event]
  refine ⟨?_, ?_, ?_, ?_, word⟩ <;> rw [same]
  · rw [eq]
  · rw [eq]
  · rw [eq]
    show maxEpoch w.rc.epoch w.link.peer.epoch + 1 = _
    rw [y.rc, y.link, peer]
    exact congrArg (· + 1) (maxEpoch_again _ _)
  · exact raised.bit

end Sys2Proof.Machine
end

section
open Sys2Proof Sys2Proof.Machine
/-! A HELLO at two claims, by the link state and the unit (R84, R85, R138, R141, R148, R150, R152). -/

namespace Sys2Proof.Machine

variable {b s t u w : State} {h : HelloFrame}

/-- The link behind a HELLO that has passed its check, its seen flag set (R83, R84). -/
def State.passed (h : HelloFrame) (s : State) : Link := { (s.entered h).checked h with seen := true }

/-- The state with the link `l` and the notices `p`. -/
def State.noticed (l : Link) (p : BitVec 16) (s : State) : State :=
  { s with link := l, csu := { s.csu with pendingSet := p } }

theorem raise_or (p q r : BitVec 16) : p ||| q ||| r = p ||| r ||| q := by
  rw [BitVec.or_assoc, BitVec.or_comm q r, BitVec.or_assoc]

/-- In UP no seen flag is set (R83). -/
theorem up_seen {l : Link} (hs : l.state = .up) :
    { l with seen := l.seen || decide (l.state = .hello ∧ l.helloPassed = true) } = l := by
  have apart : ¬ (l.state = .hello ∧ l.helloPassed = true) := by rw [hs]; nofun
  rw [decide_eq_false apart, Bool.or_false]

/-- The epoch that the success of a handoff sets (R148). -/
def State.handedEpoch (s : State) : Epoch :=
  if s.link.peer.role = .active then s.link.peer.epoch else maxEpoch s.rc.epoch s.link.peer.epoch + 1

/-- Everything the success of a handoff changes (R148). -/
theorem handoffSucceeds_eq (runs : s.csu.running = some .switchover) :
    ∃ v d x c, handoffSucceeds s =
        (s.retired .standby .inSync v d x c).onRc (fun r => { r with epoch := s.handedEpoch }) ∧
      c.running = none ∧ c.result = switchoverEnds .ok ∧ ((∀ a, s.bpt.held ≠ .read a) → x = s.bpt.held) ∧
      ∀ k : Slot, v[k] = (s.journals.states[k]).map fun _ => .desync := by
  obtain ⟨v, p, q, x, e, hv, hx, -⟩ :=
    retire_eq .standby .inSync (s.onRc fun r => { r with epoch := s.handedEpoch }) rfl
  rw [← demote_eq_retire] at e
  obtain ⟨q', y, e'⟩ := endSwitchover_ends .ok
    (s := demote .inSync (s.onRc fun r => { r with epoch := s.handedEpoch })) (by rw [e]; exact runs)
  have event : handoffSucceeds s =
      endSwitchover .ok (demote .inSync (s.onRc fun r => { r with epoch := s.handedEpoch })) := rfl
  refine ⟨v, (handoffSucceeds s).disp, x, (handoffSucceeds s).csu, ?_, ?_, ?_, hx, hv⟩ <;> rw [event, e']
  · rw [e]
    rfl

/-- A part that both claims and sees a claim, with a frame between frames. -/
structure Contended (h : HelloFrame) (s : State) : Prop where
  peer    : claims h.role = true
  mine    : claims s.rc.role = true
  between : s.link.incoming = none
  role    : RoleLaw s

namespace Contended
variable (c : Contended h s)
include c

theorem queue : s.apply.queue = [] := queue_empty_of_claims c.role c.mine

/-- Only a part in HANDOFF runs a SWITCHOVER (R146). -/
theorem running : s.rc.role = .handoff → s.csu.running = some .switchover := c.role.handoff.mp

/-! ## In HELLO -/

theorem refused_stands (hs : s.link.state = .hello) (hm : ¬ compatible h s = true) (hu : s.rc.unit = .a) :
    receiveHello h s = s.noticed s.frameCounted.refused
      (s.csu.pendingSet ||| Notice.dualClaim.mask ||| Notice.incompatible.mask) := by
  have event : helloInHello h (s.linked s.frameCounted) = s.noticed s.frameCounted.refused
      (s.csu.pendingSet ||| Notice.dualClaim.mask ||| Notice.incompatible.mask) := by
    rw [helloInHello_refused (s := s.linked s.frameCounted) hm c.peer c.mine, dualClaimDetected_stands (by exact hu),
      raise_or]
    rfl
  rw [receiveHello_hello hs c.between, event]
  exact judgeTakeover_aside _ (not_standby_of_claims c.mine)

theorem refused_yields (hs : s.link.state = .hello) (hm : ¬ compatible h s = true) (hu : s.rc.unit = .b) :
    ∃ w, receiveHello h s = judgeTakeover s w ∧
      Yields s w s.frameCounted.refused (maxEpoch s.rc.epoch s.link.peer.epoch) .peerActive := by
  refine ⟨_, receiveHello_hello hs c.between, ?_⟩
  rw [helloInHello_refused (s := s.linked s.frameCounted) hm c.peer c.mine, dualClaimDetected_yields (by exact hu)]
  refine demoteDual_yields (pends_raised _ _) rfl (fun _ => rfl) rfl ?_ rfl fun handoff => .inl ⟨c.running handoff, rfl⟩
  show ({ s.frameCounted.refused with seen := s.link.seen || false } : Link) = _
  rw [Bool.or_false]
  rfl

theorem helloInHello_passed (hs : s.link.state = .hello) (hm : compatible h s = true) :
    helloInHello h (s.linked s.frameCounted) =
      tryUp (settleSeen (dualClaimDetected (s.linked ((s.entered h).checked h)))) :=
  helloInHello_checked (s := s.linked s.frameCounted) hm c.peer c.mine
    (by rw [show (s.linked s.frameCounted).link.state = s.link.state from rfl, hs]; nofun)

/-- The link behind the check, as a part with an empty apply queue leaves it. -/
theorem checked_passed :
    ({ (s.entered h).checked h with seen := s.link.seen || decide (s.apply.queue = []) } : Link) = s.passed h := by
  rw [decide_eq_true c.queue, Bool.or_true]
  rfl

/-- Unit A behind the check. -/
theorem checked_stands (hs : s.link.state = .hello) (hm : compatible h s = true) (hu : s.rc.unit = .a) :
    helloInHello h (s.linked s.frameCounted) =
      tryUp (s.noticed (s.passed h) (s.csu.pendingSet ||| Notice.dualClaim.mask)) := by
  rw [c.helloInHello_passed hs hm, dualClaimDetected_stands (by exact hu), settleSeen_passed
      (s := raise .dualClaim (s.linked ((s.entered h).checked h))) hs rfl c.queue]
  rfl

/-- Unit B behind the check. -/
theorem checked_yields (hs : s.link.state = .hello) (hm : compatible h s = true) (hu : s.rc.unit = .b) :
    ∃ w, helloInHello h (s.linked s.frameCounted) = tryUp w ∧
      Yields s w (s.passed h) (maxEpoch s.rc.epoch h.epoch) .peerActive := by
  have yields : Yields s (demoteDual (raise .dualClaim (s.linked ((s.entered h).checked h)))) (s.passed h)
      (maxEpoch s.rc.epoch h.epoch) .peerActive := by
    refine demoteDual_yields (pends_raised _ _) rfl (fun _ => rfl) rfl ?_ rfl fun handoff => .inl ⟨c.running handoff, rfl⟩
    have seen : (s.link.seen || decide (s.link.state = .hello ∧ true = true)) = true := by simp [hs]
    show ({ (s.entered h).checked h with
      seen := s.link.seen || decide (s.link.state = .hello ∧ true = true) } : Link) = _
    rw [seen]
    rfl
  refine ⟨_, ?_, yields⟩
  rw [c.helloInHello_passed hs hm, dualClaimDetected_yields (by exact hu), settleSeen_seen (by rw [yields.link]; rfl)]

/-! ## In UP -/

/-- The state that a claiming peer's record leaves in UP, where it ends no handoff. -/
theorem up_follows (old : Role)
    (hf : s.rc.role = .active ∨ s.rc.closing = true ∧ h.role = .handoff) :
    peerRoleChanged old (s.linked (s.entered h)) = endStreamIf old (s.linked (s.entered h)) := by
  rcases hf with active | ⟨closing, handoff⟩
  · exact peerRoleChanged_active (s := s.linked (s.entered h)) old active c.peer
  · exact peerRoleChanged_handoff (s := s.linked (s.entered h)) old closing handoff

theorem up_stands (hs : s.link.state = .up) (hf : s.rc.role = .active ∨ s.rc.closing = true ∧ h.role = .handoff)
    (hu : s.rc.unit = .a) :
    receiveHello h s = raise .dualClaim (endStreamIf s.link.peer.role (s.linked (s.entered h))) := by
  have ends := endStreamIf_ends s.link.peer.role (s.linked (s.entered h))
  have role : claims (endStreamIf s.link.peer.role (s.linked (s.entered h))).rc.role = true := by
    rw [ends.rc]
    exact c.mine
  rw [receiveHello_up hs c.between c.mine, c.up_follows _ hf, judgeHelloClaim_claims c.peer role,
    dualClaimDetected_stands (by rw [ends.rc]; exact hu)]
  exact judgeTakeover_aside _ (not_standby_of_claims role)

theorem up_yields (hs : s.link.state = .up) (hf : s.rc.role = .active ∨ s.rc.closing = true ∧ h.role = .handoff)
    (hu : s.rc.unit = .b) :
    ∃ w, receiveHello h s = judgeTakeover s w ∧
      Yields s w (s.entered h) (maxEpoch s.rc.epoch h.epoch) .peerActive := by
  have ends := endStreamIf_ends s.link.peer.role (s.linked (s.entered h))
  have role : claims (endStreamIf s.link.peer.role (s.linked (s.entered h))).rc.role = true := by
    rw [ends.rc]
    exact c.mine
  refine ⟨_, receiveHello_up hs c.between c.mine, ?_⟩
  rw [c.up_follows _ hf, judgeHelloClaim_claims c.peer role, dualClaimDetected_yields (by rw [ends.rc]; exact hu)]
  generalize endStreamIf s.link.peer.role (s.linked (s.entered h)) = u at ends
  refine demoteDual_yields (pends_raised _ _) ends.outer (fun x => congrArg (RoleController.demoted x) ends.rc) ?_ ?_ ends.timing
    fun handoff => .inl ⟨ends.running.trans (c.running handoff), rfl⟩
  · show maxEpoch u.rc.epoch u.link.peer.epoch = _
    rw [ends.rc, ends.link]
    rfl
  · show ({ u.link with seen := u.link.seen || decide (u.link.state = .hello ∧ u.link.helloPassed = true) } : Link) = _
    rw [ends.link]
    exact up_seen hs

/-- The state in which a claiming peer's record has returned a part from HANDOFF before closing to ACTIVE (R150). -/
theorem up_returned (hr : s.rc.role = .handoff) (hc : s.rc.closing = false) (hp : s.link.peer.role = .standby) :
    ∃ u, peerRoleChanged s.link.peer.role (s.linked (s.entered h)) = u ∧
      u.link = s.entered h ∧ u.rc = { s.rc with role := .active, closing := false, handoff := none } ∧
      u.outer = s.outer ∧ u.apply = s.apply ∧ u.disp.inFlight = [] ∧ u.csu.running = none ∧
      u.csu.result = switchoverEnds .notPaired ∧ u.csu.timing = s.csu.timing := by
  obtain ⟨x, v, p, e, -⟩ := streamEnded_spec (s.linked (s.entered h))
  obtain ⟨q, y, e'⟩ := handoffReturns_eq .notPaired
    (s := stopRefresh (abortSync (emptyGoingBack (s.linked (s.entered h))))) (by rw [e]; exact hr)
    (by rw [e]; exact c.role.claim) (by rw [e]; exact c.running hr)
  refine ⟨_, rfl, ?_⟩
  rw [hp, peerRoleChanged_returns (s := s.linked (s.entered h)) hr hc (not_standby_of_claims c.peer), e', e]
  exact ⟨rfl, rfl, rfl, rfl, rfl, rfl, rfl, rfl⟩

theorem returned_stands (hs : s.link.state = .up) (hr : s.rc.role = .handoff) (hc : s.rc.closing = false)
    (hp : s.link.peer.role = .standby) (hu : s.rc.unit = .a) :
    ∃ u, receiveHello h s = raise .dualClaim u ∧
      u.link = s.entered h ∧ u.rc = { s.rc with role := .active, closing := false, handoff := none } ∧
      u.apply = s.apply ∧ u.disp.inFlight = [] ∧ u.csu.running = none ∧ u.csu.result = switchoverEnds .notPaired := by
  obtain ⟨u, eq, link, rc, -, apply, flight, running, result, -⟩ := c.up_returned hr hc hp
  refine ⟨u, ?_, link, rc, apply, flight, running, result⟩
  rw [receiveHello_up hs c.between c.mine, eq, judgeHelloClaim_claims c.peer (by rw [rc]; rfl),
    dualClaimDetected_stands (by rw [rc]; exact hu)]
  exact judgeTakeover_aside _ (show u.rc.role ≠ _ by rw [rc]; nofun)

theorem returned_yields (hs : s.link.state = .up) (hr : s.rc.role = .handoff) (hc : s.rc.closing = false)
    (hp : s.link.peer.role = .standby) (hu : s.rc.unit = .b) :
    ∃ w, receiveHello h s = judgeTakeover s w ∧
      Yields s w (s.entered h) (maxEpoch s.rc.epoch h.epoch) .notPaired := by
  obtain ⟨u, eq, link, rc, outer, -, -, running, result, timing⟩ := c.up_returned hr hc hp
  refine ⟨_, receiveHello_up hs c.between c.mine, ?_⟩
  rw [eq, judgeHelloClaim_claims c.peer (by rw [rc]; rfl), dualClaimDetected_yields (by rw [rc]; exact hu)]
  refine demoteDual_yields (pends_raised _ _) outer (fun x => ?_) ?_ ?_ timing fun _ => .inr ⟨running, result⟩
  · show RoleController.demoted x u.rc = _
    rw [rc]
    rfl
  · show maxEpoch u.rc.epoch u.link.peer.epoch = _
    rw [rc, link]
    rfl
  · show ({ u.link with seen := u.link.seen || decide (u.link.state = .hello ∧ u.link.helloPassed = true) } : Link) = _
    rw [link]
    exact up_seen (l := s.entered h) hs

/-- In closing an ACTIVE peer ends the handoff with success, and there is no claim left to meet (R148). -/
theorem up_succeeds (hs : s.link.state = .up) (hr : s.rc.role = .handoff) (hc : s.rc.closing = true)
    (hv : s.link.view = .paired) (hp : h.role = .active) :
    receiveHello h s = handoffSucceeds (s.linked (s.entered h)) := by
  obtain ⟨v, d, x, c', e, -⟩ := handoffSucceeds_eq (s := s.linked (s.entered h)) (c.running hr)
  have none_claimed : judgeHelloClaim h (handoffSucceeds (s.linked (s.entered h))) =
      handoffSucceeds (s.linked (s.entered h)) := if_neg (by rw [e]; simp [State.retired, State.onRc, claims])
  rw [receiveHello_up hs c.between c.mine, peerRoleChanged_succeeds (s := s.linked (s.entered h)) _ hr hc hp,
    none_claimed]
  refine judgeTakeover_none (Bool.eq_false_iff.mpr fun lost => ?_) (Bool.eq_false_iff.mpr fun none => ?_)
  · obtain ⟨-, view, -⟩ := peerSilent_iff.mp lost
    rw [e] at view
    exact nomatch hv.symm.trans view
  · obtain ⟨-, -, active, -⟩ := noActive_iff.mp none
    rw [e] at active
    exact active hp

end Contended

end Sys2Proof.Machine
end

section
open Sys2Proof Sys2Proof.Machine
/-! The end of the step of a HELLO at two claims, and the settling of the statement (R134, R138, R141, R149, R152). -/

namespace Sys2Proof.Machine

variable {b s w : State} {h : HelloFrame}

theorem claims_iff {r : Role} : claims r = true ↔ r = .active ∨ r = .handoff := by simp [claims]

/-- Unit B has yielded, and nothing is taken over behind it. -/
theorem Yields.exec {l : Link} {e : Epoch} {r : ResultCode} (y : Yields s w l e r) (noRoom : stallHasRoom s = false)
    (event : receiveHello h s = judgeTakeover s w) (hl : peerSilent w = false)
    (hn : l.view = .paired → claims l.peer.role = true) :
    exec (.helloReceived h) s = .next (finish s w) := by
  refine exec_hello noRoom (event.trans (y.not_judged hl fun view => ?_))
  rcases claims_iff.mp (hn view) with active | handoff
  exacts [.inl active, .inr (.inl handoff)]

/-- A silent peer of a part that has yielded (R141). -/
theorem Yields.silent_iff {l : Link} {e : Epoch} {r : ResultCode} (y : Yields s w l e r) :
    peerSilent w = true ↔ l.view = .lost ∧ s.csu.timing.takeoverAuto = true ∧ s.rc.claimIn = false := by
  rw [peerSilent_iff, y.link, y.rc, y.timing]
  exact and_iff_right rfl

/-- The timer of two claims expires on unit A, which stands (R152). -/
theorem dualExpired_stands {n : Nat} (claim : ClaimLaw s) (hd : s.rc.dual = .running n) (hu : s.rc.unit = .a) :
    dualExpired s = raise .dualClaim (s.onRc fun c => { c with dual := .expired }) := by
  rw [dualExpired_running hd, dualClaimDetected_stands (by exact hu)]
  exact judgeTakeover_aside _ (not_standby_of_claims (claims_of_dual claim hd).1)

/-- The timer of two claims expires on unit B, which yields (R152). -/
theorem dualExpired_yields {n : Nat} (role : RoleLaw s) (hd : s.rc.dual = .running n) (hu : s.rc.unit = .b)
    (hp : s.link.view = .paired →
      s.link.peer.role = .active ∨ s.link.peer.role = .handoff ∨ s.link.peer.role = .takeover) :
    ∃ l, Yields s (dualExpired s) l (maxEpoch s.rc.epoch s.link.peer.epoch) .peerActive := by
  have yields : Yields s (demoteDual (raise .dualClaim (s.onRc fun c => { c with dual := .expired }))) _
      (maxEpoch s.rc.epoch s.link.peer.epoch) .peerActive :=
    demoteDual_yields (pends_raised _ _) rfl (fun _ => rfl) rfl rfl rfl fun handoff => .inl ⟨role.handoff.mp handoff, rfl⟩
  have event : dualExpired s = demoteDual (raise .dualClaim (s.onRc fun c => { c with dual := .expired })) := by
    rw [dualExpired_running hd, dualClaimDetected_yields (by exact hu)]
    refine yields.not_judged (Bool.eq_false_iff.mpr fun silent => ?_) hp
    obtain ⟨-, -, absent⟩ := yields.silent_iff.mp silent
    exact nomatch (claims_of_dual role.claim hd).2.symm.trans absent
  exact ⟨_, event ▸ yields⟩

/-- A STANDBY part with a silent peer takes over when CLAIM_IN is released (R141). -/
theorem claimReleased_takesOver (held : s.rc.claimIn = true) (standby : s.rc.role = .standby)
    (lost : s.link.view = .lost) (auto : s.csu.timing.takeoverAuto = true) (drained : s.apply.queue = []) :
    (finish b (levelSampled false s)).rc.role = .active ∧ (finish b (levelSampled false s)).rc.claimOut = true ∧
      (finish b (levelSampled false s)).rc.epoch = maxEpoch s.rc.epoch s.link.peer.epoch + 1 := by
  have silent : peerSilent (s.onRc fun c => settleDual { c with claimIn := false }) = true :=
    peerSilent_iff.mpr ⟨standby, lost, auto, rfl⟩
  have event : levelSampled false s = takeOverNow (s.onRc fun c => settleDual { c with claimIn := false }) :=
    (if_neg (by rw [held]; nofun)).trans (if_pos silent)
  obtain ⟨r, j, d, p, c, eq, flight, -⟩ :=
    takeOverNow_eq (s := s.onRc fun c => settleDual { c with claimIn := false }) drained
  obtain ⟨m, p', q, x, i, same⟩ := finish_emptied (b := b)
    (w := takeOverNow (s.onRc fun c => settleDual { c with claimIn := false })) (fun _ => by rw [eq]; exact drained)
    (by rw [eq]; exact flight)
  rw [event, same, eq]
  exact ⟨rfl, rfl, rfl⟩

/-- A handoff that expires before closing returns to ACTIVE (R149). -/
theorem handoffExpired_returns (role : RoleLaw s) (hr : s.rc.role = .handoff) (hc : s.rc.closing = false)
    (ht : s.rc.handoff ≠ none) :
    ∃ q h, handoffExpired s =
      { s with
        rc := { s.rc with role := .active, handoff := none }
        csu := { s.csu with
          running := none, result := switchoverEnds .timeout
          pendingSet := s.csu.pendingSet ||| Notice.roleChanged.mask ||| Notice.commandDone.mask
          postQueue := q, resultHold := h } } := by
  obtain ⟨q, h, e⟩ := handoffReturns_eq .timeout hr role.claim (role.handoff.mp hr)
  refine ⟨q, h, ?_⟩
  rw [handoffExpired, if_pos ⟨hr, hc, Option.isSome_iff_ne_none.mpr ht⟩, e]
  simp only [← hc]

end Sys2Proof.Machine

/-- Settles O48: the event, then what the end of the step makes of it; for a HELLO by the link state, the check and the
unit. -/
theorem twoClaims : Obligations.TwoClaims := by
  intro s role ⟨stall, noRoom⟩ withheld
  have ends {f : State → State} {w : State} (event : f s = w) : takeEvent f s = finish s w :=
    (takeEvent_noRoom noRoom).trans (congrArg (finish s) event)
  refine ⟨fun v level => ?_, fun v changed stays => ?_, fun held standby lost auto drained => ?_, fun n dual unit => ?_,
    fun n dual unit peer => ?_, ?_, fun handoff closing timer => ?_, fun other => ?_⟩
  · exact ⟨_, congrArg Host.Outcome.next (ends (if_pos level.symm)), finish_keeps stall⟩
  · have event : levelSampled v s = _ := (if_neg (Ne.symm changed)).trans (congrArg judgeLost (claimed_eq role.claim changed))
    rw [judgeLost_none (Bool.eq_false_iff.mpr fun silent => ?_)] at event
    · exact ⟨_, congrArg Host.Outcome.next (ends event), finish_keeps (w := { s with rc := _ }) stall⟩
    · exact stays (peerSilent_iff.mp silent)
  · exact ⟨_, congrArg Host.Outcome.next (ends rfl), claimReleased_takesOver held standby lost auto drained⟩
  · exact ⟨_, congrArg Host.Outcome.next (ends (dualExpired_stands role.claim dual unit)),
      finish_keeps (w := raise .dualClaim (s.onRc fun c => { c with dual := .expired })) stall⟩
  · obtain ⟨l, yields⟩ := dualExpired_yields role dual unit peer
    obtain ⟨-, rc, notice, memory, rts, flight, journals, queue, phase, refreshing, ended⟩ := yields.shown (b := s)
    exact ⟨_, congrArg Host.Outcome.next (ends rfl), rc, notice, memory, rts, flight, journals, queue, phase, refreshing,
      fun runs => (ended (role.handoff.mpr runs)).2⟩
  · intro h peer mine between entered checked refused raised demoted matched moves silent becomes yields
    have c : Contended h s := ⟨peer, mine, between, role⟩
    have seen : checked = s.passed h := c.checked_passed
    refine ⟨fun hello unmatched => ⟨fun unit => ?_, fun unit loud unpaired => ?_⟩,
      fun hello same still unpaired => ⟨fun unit => ?_, fun unit loud => ?_, fun unit quiet active count => ?_⟩,
      fun hello same moving => ⟨fun unit => ?_, fun unit => ?_⟩,
      fun up paired active => ⟨fun unit away => ?_, fun unit standby => ?_, fun unit => ?_⟩,
      fun up paired handoff early standby => ⟨fun unit => ?_, fun unit => ?_⟩,
      fun up paired handoff closing => ⟨fun active => ?_, fun claimed unit => ?_, fun claimed unit => ?_⟩⟩
    · exact ⟨_, exec_hello noRoom (c.refused_stands hello (mt compatible_iff.mp unmatched) unit),
        finish_keeps (w := s.noticed _ _) stall⟩
    · obtain ⟨w, event, y⟩ := c.refused_yields hello (mt compatible_iff.mp unmatched) unit
      exact ⟨_, y.exec noRoom event (Bool.eq_false_iff.mpr fun q => loud (y.silent_iff.mp q)) fun view => absurd view unpaired,
        y.shown⟩
    · have event : receiveHello h s = s.noticed (s.passed h) raised := by
        rw [receiveHello_hello hello between, c.checked_stands hello (compatible_iff.mpr same) unit, tryUp_waits still]
        exact judgeTakeover_aside _ (not_standby_of_claims mine)
      rw [seen]
      exact ⟨_, exec_hello noRoom event, finish_keeps (w := s.noticed _ _) stall⟩
    · obtain ⟨w, event, y⟩ := c.checked_yields hello (compatible_iff.mpr same) unit
      rw [tryUp_waits (by rw [y.link]; exact still)] at event
      exact ⟨_, y.exec noRoom ((receiveHello_hello hello between).trans (congrArg (judgeTakeover s) event))
        (Bool.eq_false_iff.mpr fun q => loud (y.silent_iff.mp q)) fun view => absurd view unpaired, y.shown⟩
    · obtain ⟨w, event, y⟩ := c.checked_yields hello (compatible_iff.mpr same) unit
      rw [tryUp_waits (by rw [y.link]; exact still)] at event
      exact ⟨_, exec_hello noRoom ((receiveHello_hello hello between).trans (congrArg (judgeTakeover s) event)),
        takesOver_silent y (y.silent_iff.mpr quiet) rfl count⟩
    · have event : receiveHello h s = _ := receiveHello_hello hello between
      rw [c.checked_stands hello (compatible_iff.mpr same) unit, tryUp_goes (by exact hello) (by exact moving.2) (by exact moving.1),
        goUp_eq (.inr (by exact not_standby_of_claims peer))] at event
      rw [seen]
      exact ⟨_, exec_hello noRoom (event.trans (judgeTakeover_aside _ (not_standby_of_claims mine))),
        finish_keeps (w := { s with link := _, apply := _, disp := _, csu := _ }) stall⟩
    · obtain ⟨w, event, y⟩ := c.checked_yields hello (compatible_iff.mpr same) unit
      rw [tryUp_goes (by rw [y.link]; exact hello) (by rw [y.link]; exact moving.2) (by rw [y.link]; exact moving.1)] at event
      exact ⟨_, y.rises.exec noRoom ((receiveHello_hello hello between).trans (congrArg (judgeTakeover s) event))
        (Bool.eq_false_iff.mpr fun q => nomatch (y.rises.silent_iff.mp q).1) fun _ => peer, y.rises.shown⟩
    · have follows := c.up_stands up (.inl active) unit
      rw [endStreamIf, if_neg away] at follows
      exact ⟨_, exec_hello noRoom follows, finish_keeps (w := s.noticed _ _) stall⟩
    · have follows := c.up_stands up (.inl active) unit
      obtain ⟨x, v, p, e, -⟩ := streamEnded_spec (s.linked (s.entered h))
      have raised : Pends Notice.dualClaim.bit (receiveHello h s) := by
        rw [follows]
        exact pends_raised _ _
      rw [endStreamIf, if_pos standby, e] at follows
      obtain ⟨m, b, q, y, i, kept⟩ := finish_emptied (b := s) (w := receiveHello h s) (fun _ => by rw [follows]; exact c.queue)
        (by rw [follows]; rfl)
      refine ⟨_, exec_hello noRoom rfl, ?_⟩
      rw [kept]
      refine ⟨?_, ?_, raised.bit, ?_, ?_, ?_, ?_, ?_⟩ <;> rw [follows]
      case refine_5 =>
        show (s.disp.seqClosed || (!s.disp.inFlight.isEmpty && decide (s.link.state = .up))) = _
        rw [decide_eq_true up, Bool.and_true]
      all_goals rfl
    · obtain ⟨w, event, y⟩ := c.up_yields up (.inl active) unit
      exact ⟨_, y.exec noRoom event (Bool.eq_false_iff.mpr fun q => nomatch paired.symm.trans (y.silent_iff.mp q).1)
        (fun _ => peer), y.shown⟩
    · obtain ⟨u, event, link, rc, apply, flight, running, result⟩ := c.returned_stands up handoff early standby unit
      obtain ⟨m, b, q, y, i, kept⟩ := finish_emptied (b := s) (w := raise .dualClaim u) (fun _ => by exact apply ▸ c.queue)
        flight
      refine ⟨_, exec_hello noRoom event, ?_⟩
      rw [kept]
      exact ⟨link, rc.trans (by rw [← early]), (pends_raised .dualClaim u).bit, running, result⟩
    · obtain ⟨w, event, y⟩ := c.returned_yields up handoff early standby unit
      exact ⟨_, y.exec noRoom event (Bool.eq_false_iff.mpr fun q => nomatch paired.symm.trans (y.silent_iff.mp q).1)
        (fun _ => peer), y.shown⟩
    · obtain ⟨v, d, x, c', e, running, result, -⟩ := handoffSucceeds_eq (s := s.linked (s.entered h)) (c.running handoff)
      have event := c.up_succeeds up handoff closing paired active
      have notice : Shows Notice.dualClaim.bit (s.csu.pendingSet.getLsbD Notice.dualClaim.bit)
          (handoffSucceeds (s.linked (s.entered h))) :=
        Shows.handoffSucceeds (s := s.linked (s.entered h)) ⟨.inr (by decide), rfl⟩
      rw [e] at event notice
      obtain ⟨m, b, q, y, i, kept⟩ := finish_emptied (b := s)
        (w := ((s.linked (s.entered h)).retired .standby .inSync v d x c').onRc _) (fun _ => rfl) rfl
      refine ⟨_, exec_hello noRoom event, ?_⟩
      rw [kept]
      have epoch : (s.linked (s.entered h)).handedEpoch = h.epoch := if_pos active
      refine ⟨up_seen (l := s.entered h) up, ?_, notice.bit, running, result⟩
      rw [epoch]
      rfl
    · obtain ⟨w, event, y⟩ := c.up_yields up (.inr ⟨closing, claimed⟩) unit
      exact ⟨_, y.exec noRoom event (Bool.eq_false_iff.mpr fun q => nomatch paired.symm.trans (y.silent_iff.mp q).1)
        (fun _ => peer), y.shown⟩
    · have follows := c.up_stands up (.inr ⟨closing, claimed⟩) unit
      have ends := endStreamIf_ends s.link.peer.role (s.linked (s.entered h))
      generalize endStreamIf s.link.peer.role (s.linked (s.entered h)) = u at ends follows
      have free (a : Access) (n : Nat) (held : (raise .dualClaim u).bpt.held = .stall a n) : False := by
        rcases captures_iff.mp (stall a n (ends.bpt ▸ held)).2.1 with active | ⟨-, before⟩
        · exact nomatch handoff.symm.trans active
        · exact nomatch closing.symm.trans before
      obtain ⟨m, b, q, y, i, kept⟩ := finish_aside (b := s) (s := raise .dualClaim u) fun a n held _ => (free a n held).elim
      refine ⟨_, exec_hello noRoom follows, ?_⟩
      rw [kept]
      exact ⟨ends.link, ends.rc, (pends_raised .dualClaim u).bit, ends.running, ends.result⟩
  · obtain ⟨q, h, event⟩ := handoffExpired_returns role handoff closing timer
    refine ⟨_, rfl, ?_⟩
    rw [close_unreported, event]
    rfl
  · have stands : handoffExpired s = s := if_neg fun expires => by
      rcases other with role | closing | timer
      · exact role expires.1
      · exact nomatch closing.symm.trans expires.2.1
      · exact Option.isSome_iff_ne_none.mp expires.2.2 timer
    refine ⟨_, rfl, ?_⟩
    rw [close_unreported, stands]
end

section
open Sys2Proof Sys2Proof.Machine
/-! The no-active rule, once it is judged (R142, R144, R145). -/

namespace Sys2Proof.Machine

variable {b s t u v w : State}

/-- The table of R142 in one formula. -/
theorem localWins_eq (s : State) : localWins s = wins s.rc.unit s.rc.sync s.link.peer := by
  unfold localWins wins
  cases s.link.peer.role <;> cases s.rc.sync <;> cases s.link.peer.sync <;> cases s.rc.unit <;> rfl

/-- What the rule, judged on `u`, leaves as `w`. -/
structure Judged (u w : State) : Prop where
  link    : w.link = u.link
  apply   : w.apply = u.apply
  windows : w.windows = u.windows
  outer   : w.outer = u.outer
  flight  : u.disp.inFlight = [] → w.disp.inFlight = []
  takes   : wins u.rc.unit u.rc.sync u.link.peer = true → u.csu.timing.takeoverAuto = true → u.apply.queue = [] →
    w.rc = { u.rc with
      role := .active, claimOut := true, dual := if u.rc.claimIn then .running 0 else .stopped
      epoch := maxEpoch u.rc.epoch u.link.peer.epoch + 1 }
  waits   : wins u.rc.unit u.rc.sync u.link.peer = true → u.csu.timing.takeoverAuto = true → u.apply.queue ≠ [] →
    w.rc = { u.rc with role := .takeover, claimOut := false, dual := .stopped }
  stays   : wins u.rc.unit u.rc.sync u.link.peer = false ∨ u.csu.timing.takeoverAuto = false → w.rc = u.rc
  notice  : w.csu.pendingSet.getLsbD Notice.noActive.bit =
    (u.csu.pendingSet.getLsbD Notice.noActive.bit ||
      (wins u.rc.unit u.rc.sync u.link.peer && !u.csu.timing.takeoverAuto))

theorem shows_noActive (u : State) : Shows Notice.noActive.bit (u.csu.pendingSet.getLsbD Notice.noActive.bit) u :=
  ⟨.inr (by decide), rfl⟩

theorem judgeNoActive_judged (h : noActiveJudged b u = true) : Judged u (judgeNoActive b u) := by
  have shows := (shows_noActive u).takeOverNow.bit
  unfold judgeNoActive
  rw [h, Bool.true_and, localWins_eq]
  cases winner : wins u.rc.unit u.rc.sync u.link.peer with
  | false =>
    have loses {p : Prop} (won : wins u.rc.unit u.rc.sync u.link.peer = true) : p := nomatch winner.symm.trans won
    exact ⟨rfl, rfl, rfl, rfl, id, loses, loses, fun _ => rfl, by simp [winner]⟩
  | true =>
    rw [if_pos rfl]
    cases auto : u.csu.timing.takeoverAuto with
    | false =>
      refine ⟨rfl, rfl, rfl, rfl, id, ?_, ?_, fun _ => rfl, ?_⟩
      · rw [auto]; nofun
      · rw [auto]; nofun
      · rw [winner, auto]
        exact (pends_raised .noActive u).bit.trans (by simp)
    | true =>
      rw [if_pos rfl]
      by_cases queue : u.apply.queue = []
      · obtain ⟨r, j, d, p, c, e, flight, -⟩ := takeOverNow_eq queue
        have outer := takeOverNow_outer u
        rw [e] at outer shows ⊢
        refine ⟨rfl, rfl, rfl, outer, fun _ => flight, fun _ _ _ => rfl, fun _ _ hq => absurd queue hq, ?_, ?_⟩
        · rw [winner, auto]; nofun
        · rw [shows, winner, auto]
          simp
      · rw [takeOverNow_waits queue] at shows ⊢
        refine ⟨rfl, rfl, rfl, rfl, id, fun _ _ hq => absurd hq queue, fun _ _ _ => rfl, ?_, ?_⟩
        · rw [winner, auto]; nofun
        · rw [shows, winner, auto]
          simp

/-- What the view of a statement keeps is the same in two states that are equal under it. -/
theorem field_of_unreported {α : Type} (h : t.unreported = w.unreported) (f : State → α)
    (hf : ∀ x : State, f x.unreported = f x) : f t = f w := by
  rw [← hf t, h, hf]

/-- The rule as a statement shows it: `v` is the state that the command but for the rule leaves. -/
theorem Judged.shown {c : Instr} (h : Judged u w) (exec : exec c s = .next t) (ends : t.unreported = w.unreported)
    (link : u.link = v.link) (apply : u.apply = v.apply) (windows : u.windows = v.windows) (mem : u.mem = v.mem)
    (rc : u.rc = v.rc) (auto : u.csu.timing = s.csu.timing)
    (notice : u.csu.pendingSet.getLsbD Notice.noActive.bit = s.csu.pendingSet.getLsbD Notice.noActive.bit) :
    NoActiveJudged c s v := by
  have field {α : Type} (f : State → α) (hf : ∀ x : State, f x.unreported = f x) : f t = f w :=
    field_of_unreported ends f hf
  have same := field State.rc fun _ => rfl
  refine ⟨t, exec, ?_, ?_, ?_, ?_, ?_, ?_, ?_, ?_⟩
  · exact (field State.link fun _ => rfl).trans (h.link.trans link)
  · exact (field State.apply fun _ => rfl).trans (h.apply.trans apply)
  · exact (field State.windows fun _ => rfl).trans (h.windows.trans windows)
  · exact (field State.mem fun _ => rfl).trans ((mem_of_outer h.outer).trans mem)
  all_goals rw [← rc, ← link]
  · rw [← auto, ← apply, same]
    exact h.takes
  · rw [← auto, ← apply, same]
    exact h.waits
  · rw [← auto, same]
    exact h.stays
  · rw [← notice, ← auto, field (·.csu.pendingSet) fun _ => rfl]
    exact h.notice

end Sys2Proof.Machine
end

section
open Sys2Proof Sys2Proof.Machine
/-! A HEARTBEAT taken in UP: its record, its applied sequence, and the end of its step (R66, R92, R94, R137). -/

namespace Sys2Proof.Machine

variable {b s t u w : State} {h : HeartbeatFrame} {a : SeqNo}

/-! ## An applied sequence that acknowledges nothing (R66) -/

theorem resolveApplied_oldest (ha : a = oldestSeq s) : resolveApplied a s = s := by
  have none_ahead : seqAhead (oldestSeq s) a = 0 := by simp [ha, seqAhead]
  rw [resolveApplied, none_ahead]
  rfl

theorem oldestSeq_congr (hf : w.disp.inFlight = s.disp.inFlight) (hn : w.link.nextSeq = s.link.nextSeq) :
    oldestSeq w = oldestSeq s := by
  rw [oldestSeq, oldestSeq, hf, hn]

theorem oldestSeq_empty (hf : s.disp.inFlight = []) : oldestSeq s = s.link.nextSeq := by rw [oldestSeq, hf]

/-- The oldest sequence number lies at most 16 before the next (R65). -/
theorem oldestSeq_near (law : SequenceLaw s) : seqAhead (oldestSeq s) s.link.nextSeq ≤ 16 := by
  cases hf : s.disp.inFlight with
  | nil => simp [oldestSeq_empty hf, seqAhead]
  | cons e l =>
    have room := law.room
    have first := law.numbered 0 (by simp [hf])
    simp only [hf, List.getElem_cons_zero, Nat.sub_zero, List.length_cons] at first room
    have oldest : oldestSeq s = e.seq := by rw [oldestSeq, hf]
    rw [oldest, first, seqAhead]
    have count : (BitVec.ofNat 16 (l.length + 1)).toNat = l.length + 1 := by
      rw [BitVec.toNat_ofNat]
      exact Nat.mod_eq_of_lt (by omega)
    have ahead : s.link.nextSeq - (s.link.nextSeq - BitVec.ofNat 16 (l.length + 1)) = BitVec.ofNat 16 (l.length + 1) := by
      generalize BitVec.ofNat 16 (l.length + 1) = x
      bv_omega
    rw [ahead, count]
    omega

/-- An A that was the oldest means nothing once the list has been emptied (R66, R69). -/
theorem resolveApplied_emptied (law : SequenceLaw s) (ha : a = oldestSeq s) (hf : w.disp.inFlight = [])
    (hn : w.link.nextSeq = s.link.nextSeq) : resolveApplied a w = w := by
  have near := oldestSeq_near law
  have none_sent : transmittedCount w.disp = 0 := by simp [transmittedCount, hf]
  have oldest : oldestSeq w = s.link.nextSeq := (oldestSeq_empty hf).trans hn
  rw [← ha, seqAhead] at near
  by_cases same : a = s.link.nextSeq
  · exact resolveApplied_oldest (same.trans oldest.symm)
  · have behind : 1 ≤ (s.link.nextSeq - a).toNat := by
      by_contra hzero
      exact same (by bv_omega)
    have ahead : seqAhead s.link.nextSeq a ≠ 0 := by
      rw [seqAhead]
      bv_omega
    have sent : ¬ (1 ≤ seqAhead s.link.nextSeq a ∧ seqAhead s.link.nextSeq a ≤ 0) := by omega
    have past : 1 ≤ seqAhead a s.link.nextSeq ∧ seqAhead a s.link.nextSeq ≤ 32767 := ⟨behind, near.trans (by decide)⟩
    rw [resolveApplied, oldest, none_sent, if_neg sent, if_neg ahead, if_pos past]

/-! ## The record (R94) -/

/-- The state with the frame counted and the record of the HEARTBEAT entered; a STANDBY part takes a greater E. -/
def State.heard (h : HeartbeatFrame) (s : State) : State :=
  { s with
    link := { s.frameCounted with peer := heartbeatRecord h }
    rc := { s.rc with epoch := if s.rc.role = .standby then maxEpoch s.rc.epoch h.epoch else s.rc.epoch } }

theorem updatePeer_heard (hu : s.link.state = .up) :
    updatePeer (heartbeatRecord h) (s.linked s.frameCounted) = peerRoleChanged s.link.peer.role (s.heard h) := by
  rw [updatePeer, if_pos (by exact hu)]
  by_cases standby : s.rc.role = .standby
  · rw [if_pos (by exact standby), State.heard, if_pos standby]
    rfl
  · rw [if_neg (by exact standby), State.heard, if_neg standby]
    rfl

theorem receiveHeartbeat_up (b : Bool) (hu : s.link.state = .up) (hi : s.link.incoming = none) :
    receiveHeartbeat h b s =
      if b then enterHeartbeat h (resolveApplied h.applied (s.linked s.frameCounted))
      else resolveApplied h.applied (enterHeartbeat h (s.linked s.frameCounted)) := by
  have checks : checksFrames s.link = true := by rw [checksFrames, hu]
  rw [receiveHeartbeat, if_pos checks, countFrame_between hi, takeHeartbeat, if_pos (by exact hu)]
  rfl

/-- A HEARTBEAT whose A acknowledges nothing leaves what its record leaves, in either order of the two (R66, R94). -/
theorem receiveHeartbeat_enters (b : Bool) (hu : s.link.state = .up) (hi : s.link.incoming = none)
    (ha : h.applied = oldestSeq s)
    (enters : judgeTakeover (s.linked s.frameCounted) (peerRoleChanged s.link.peer.role (s.heard h)) = w)
    (resolves : resolveApplied h.applied w = w) : receiveHeartbeat h b s = w := by
  have entered : enterHeartbeat h (s.linked s.frameCounted) = w := by
    rw [enterHeartbeat, updatePeer_heard hu]
    exact enters
  rw [receiveHeartbeat_up b hu hi]
  cases b with
  | true => rw [resolveApplied_oldest (s := s.linked s.frameCounted) ha, entered, if_pos rfl]
  | false => rw [entered, resolves]; rfl

theorem exec_heartbeat (b : Bool) (noRoom : stallHasRoom s = false) (event : receiveHeartbeat h b s = w) :
    exec (.heartbeatReceived h b) s = .next (finish s w) :=
  congrArg Host.Outcome.next ((takeEvent_noRoom noRoom).trans (congrArg (finish s) event))

/-! ## What a change of the peer's role brings -/

/-- The same role brings nothing (R94). -/
theorem peerRoleChanged_same (hc : s.rc.role = .handoff → s.rc.closing = false) :
    peerRoleChanged s.link.peer.role s = s := by
  have early (hr : s.rc.role = .handoff) (closing : s.rc.closing = true) : False := nomatch (hc hr).symm.trans closing
  rw [peerRoleChanged, if_neg (fun ends => early ends.1 ends.2.1), if_neg (fun leaves => leaves.2 leaves.1),
    if_neg (fun enters => enters.1 enters.2), if_neg (fun returns => early returns.1 returns.2.1)]

/-- Outside HANDOFF a peer that leaves STANDBY ends the sequence stream (R69). -/
theorem peerRoleChanged_leaves (hr : s.rc.role ≠ .handoff) (hp : s.link.peer.role ≠ .standby) :
    peerRoleChanged .standby s = stopRefresh (abortSync (emptyGoingBack s)) := by
  rw [peerRoleChanged, if_neg (fun ends => hr ends.1), if_pos ⟨rfl, hp⟩]
  exact if_neg fun returns => hr returns.1

/-- A peer that enters STANDBY brings the pairing decision (R118). -/
theorem peerRoleChanged_enters {old : Role} (ho : old ≠ .standby) (hp : s.link.peer.role = .standby) :
    peerRoleChanged old s = decideIfPaired s := by
  rw [peerRoleChanged, if_neg (fun ends => ?_), if_neg (fun leaves => ho leaves.1), if_pos ⟨ho, hp⟩]
  rw [hp] at ends
  exact absurd ends.2.2 (by decide)

/-- Outside HANDOFF a change between two other roles brings nothing. -/
theorem peerRoleChanged_apart {old : Role} (hr : s.rc.role ≠ .handoff) (ho : old ≠ .standby)
    (hp : s.link.peer.role ≠ .standby) : peerRoleChanged old s = s := by
  rw [peerRoleChanged, if_neg (fun ends => hr ends.1), if_neg (fun leaves => ho leaves.1),
    if_neg (fun enters => hp enters.2), if_neg (fun returns => hr returns.1)]

/-- A part that sends nothing decides nothing (R118). -/
theorem decideIfPaired_aside (hr : claims s.rc.role = false) : decideIfPaired s = s := by
  refine if_neg fun holds => ?_
  rw [claims_iff.mpr (decisionHolds_iff.mp holds).2] at hr
  cases hr

end Sys2Proof.Machine
end

section
open Sys2Proof Sys2Proof.Machine
/-! A HEARTBEAT by the part's role and the change of the peer's (R69, R118, R142, R148, R150). -/

namespace Sys2Proof.Machine

variable {s t u w : State} {h : HeartbeatFrame}

/-! ## What it leaves unjudged -/

/-- With the peer's role and sync state as they were, or with a peer that claims, nothing is taken over (R142). -/
theorem heard_unjudged (hv : s.link.view = .paired) (hr : h.role = s.link.peer.role)
    (hs : s.rc.role = .standby → (h.role = .active ∨ h.role = .handoff ∨ h.role = .takeover) ∨
      h.sync = s.link.peer.sync) :
    judgeTakeover (s.linked s.frameCounted) (s.heard h) = s.heard h := by
  by_cases standby : s.rc.role = .standby
  · have silent : peerSilent (s.heard h) = false := by
      refine Bool.eq_false_iff.mpr fun lost => ?_
      exact nomatch hv.symm.trans (peerSilent_iff.mp lost).2.1
    have unjudged : noActiveJudged (s.linked s.frameCounted) (s.heard h) = false := by
      have role : (s.linked s.frameCounted).link.peer.role = (s.heard h).link.peer.role := hr.symm
      have before : noActive (s.linked s.frameCounted) = noActive (s.heard h) := by
        unfold noActive
        rw [role]
        rfl
      have sync : (s.linked s.frameCounted).rc.sync = (s.heard h).rc.sync := rfl
      rcases hs standby with claimed | same
      · have active : noActive (s.heard h) = false := by
          refine Bool.eq_false_iff.mpr fun none => ?_
          obtain ⟨-, -, active, handoff, takeover⟩ := noActive_iff.mp none
          rcases claimed with x | x | x
          exacts [active x, handoff x, takeover x]
        simp [noActiveJudged, active]
      · have peerSync : (s.linked s.frameCounted).link.peer.sync = (s.heard h).link.peer.sync := same.symm
        rw [noActiveJudged, before, role, sync, peerSync]
        cases noActive (s.heard h) <;> simp
    rw [judgeTakeover, judgeLost_none silent, judgeNoActive, unjudged]
    rfl
  · exact judgeTakeover_aside _ standby

/-- A part that claims nothing ends at most a sequence stream, which it has not (R69). -/
theorem peerRoleChanged_idle (old : Role) (hc : claims s.rc.role = false) :
    peerRoleChanged old s =
      if old = .standby ∧ s.link.peer.role ≠ .standby then stopRefresh (abortSync (emptyGoingBack s)) else s := by
  have apart : s.rc.role ≠ .handoff := fun handoff => by
    rw [handoff] at hc
    cases hc
  by_cases ho : old = .standby
  · subst ho
    by_cases hp : s.link.peer.role = .standby
    · rw [if_neg (fun leaves => leaves.2 hp), ← hp]
      exact peerRoleChanged_same fun handoff => absurd handoff apart
    · rw [if_pos ⟨rfl, hp⟩, peerRoleChanged_leaves apart hp]
  · rw [if_neg (fun leaves => ho leaves.1)]
    by_cases hp : s.link.peer.role = .standby
    · rw [peerRoleChanged_enters ho hp, decideIfPaired_aside hc]
    · exact peerRoleChanged_apart apart ho hp

/-- A part that claims nothing, behind the change of the peer's role. -/
theorem peerRoleChanged_ends (old : Role) (hc : claims s.rc.role = false) : StreamEnds s (peerRoleChanged old s) := by
  rw [peerRoleChanged_idle old hc]
  split
  · exact streamEnds s
  · exact ⟨rfl, rfl, rfl, rfl, rfl, rfl, rfl, rfl, rfl⟩

theorem streamEnded_inFlight (s : State) : (stopRefresh (abortSync (emptyGoingBack s))).disp.inFlight = [] := by
  obtain ⟨x, v, p, e, -⟩ := streamEnded_spec s
  rw [e]

theorem peerRoleChanged_inFlight (old : Role) (hc : claims s.rc.role = false) (hf : s.disp.inFlight = []) :
    (peerRoleChanged old s).disp.inFlight = [] := by
  rw [peerRoleChanged_idle old hc]
  split
  · exact streamEnded_inFlight s
  · exact hf

/-! ## What an applied sequence leaves alone -/

/-- The Role Controller, and the link but for its count of errors, stand. -/
structure Acknowledges (s t : State) : Prop where
  rc    : t.rc = s.rc
  state : t.link.state = s.link.state
  peer  : t.link.peer = s.link.peer

namespace Acknowledges

theorem refl (s : State) : Acknowledges s s := ⟨rfl, rfl, rfl⟩

theorem trans (h : Acknowledges s t) (h' : Acknowledges t u) : Acknowledges s u :=
  ⟨h'.rc.trans h.rc, h'.state.trans h.state, h'.peer.trans h.peer⟩

theorem ite {p : Prop} [Decidable p] (ht : p → Acknowledges s t) (hu : ¬ p → Acknowledges s u) :
    Acknowledges s (if p then t else u) := by
  split
  · exact ht ‹_›
  · exact hu ‹_›

theorem recordAcked (k : Slot) (i : Nat) (s : State) : Acknowledges s (recordAcked k i s) := by
  unfold Machine.recordAcked
  split
  · exact ite (fun _ => ⟨rfl, rfl, rfl⟩) fun _ => ⟨rfl, rfl, rfl⟩
  · exact refl s

theorem copyAcked (k : Slot) (s : State) : Acknowledges s (copyAcked k s) := by
  unfold Machine.copyAcked
  split <;> exact ⟨rfl, rfl, rfl⟩

theorem syncDoneAcked (q : SeqNo) (s : State) : Acknowledges s (syncDoneAcked q s) := by
  unfold Machine.syncDoneAcked
  split <;> exact ⟨rfl, rfl, rfl⟩

theorem entryAcked (e : InFlight) (hr : s.rc.role ≠ .handoff) : Acknowledges s (entryAcked e s) := by
  have dropped : Acknowledges s (dropFront s) := ⟨rfl, rfl, rfl⟩
  unfold Machine.entryAcked
  split
  · exact recordAcked _ _ s
  · exact dropped
  · split
    · exact dropped.trans (copyAcked _ _)
    · exact dropped
  · exact refl s
  · exact syncDoneAcked _ s
  · rw [if_neg fun ends => hr ends.1]
    exact refl s

theorem acknowledge (n : Nat) (hr : s.rc.role ≠ .handoff) : Acknowledges s (acknowledge n s) := by
  induction n generalizing s with
  | zero => exact refl s
  | succ n ih =>
    unfold Machine.acknowledge
    split
    · exact refl s
    · next e rest _ =>
      have acked := entryAcked (s := s.onDisp fun d => abandonReadout e { d with inFlight := rest }) e hr
      have left : Acknowledges s (s.onDisp fun d => abandonReadout e { d with inFlight := rest }) := ⟨rfl, rfl, rfl⟩
      have first := left.trans acked
      exact first.trans (ih (by rw [first.rc]; exact hr))

theorem resolveApplied (a : SeqNo) (hr : s.rc.role ≠ .handoff) : Acknowledges s (resolveApplied a s) := by
  have acked := acknowledge (seqAhead (oldestSeq s) a) hr
  have converged : judgeConverged (restartAckTimer (Machine.acknowledge (seqAhead (oldestSeq s) a) s)) =
      restartAckTimer (Machine.acknowledge (seqAhead (oldestSeq s) a) s) :=
    if_neg fun holds => hr ((congrArg (·.role) acked.rc).symm.trans holds.1)
  refine ite (fun _ => ?_) fun _ => ite (fun _ => refl s) fun _ => ite (fun _ => refl s) fun _ => ⟨rfl, rfl, rfl⟩
  rw [converged]
  exact acked.trans ⟨rfl, rfl, rfl⟩

end Acknowledges

/-- The record that stands already, entered again, changes nothing on a part that neither waits for a peer nor hands over
(R94). -/
theorem enterHeartbeat_same (hr : s.rc.role ≠ .standby) (hh : s.rc.role ≠ .handoff) (hu : s.link.state = .up)
    (hp : heartbeatRecord h = s.link.peer) : enterHeartbeat h s = s := by
  have entered : s.onLink (fun l => { l with peer := heartbeatRecord h }) = s := by rw [hp]; rfl
  rw [enterHeartbeat, updatePeer, if_pos hu, if_neg hr, entered, peerRoleChanged_same fun handoff => absurd handoff hh]
  exact judgeTakeover_aside _ hr

theorem receiveHeartbeat_same (b : Bool) (hu : s.link.state = .up) (hi : s.link.incoming = none)
    (hr : s.rc.role ≠ .standby) (hh : s.rc.role ≠ .handoff) (hp : heartbeatRecord h = s.link.peer) :
    receiveHeartbeat h b s = receiveAck h.applied s := by
  have checks : checksFrames s.link = true := by rw [checksFrames, hu]
  have acked := Acknowledges.resolveApplied (s := s.linked s.frameCounted) h.applied hh
  have ack : receiveAck h.applied s = resolveApplied h.applied (s.linked s.frameCounted) := by
    rw [receiveAck, if_pos checks, if_pos hu, countFrame_between hi]
    rfl
  rw [receiveHeartbeat_up b hu hi, ack]
  cases b with
  | true =>
    exact enterHeartbeat_same (by rw [acked.rc]; exact hr) (by rw [acked.rc]; exact hh) (acked.state.trans hu)
      (hp.trans acked.peer.symm)
  | false => exact congrArg (resolveApplied h.applied) (enterHeartbeat_same (s := s.linked s.frameCounted) hr hh hu hp)

end Sys2Proof.Machine
end

section
open Sys2Proof Sys2Proof.Machine
/-! HEARTBEAT_RECEIVED by the link state and the role (R66, R69, R92, R94, R118, R142, R148, R150). -/

namespace Sys2Proof.Machine

variable {b s t u w : State} {h : HeartbeatFrame}

/-! ## The end of the step -/

/-- Without a stalled write the end of a step leaves memory as the event does. -/
theorem finish_mem (outer : w.outer = s.outer) (free : ∀ a n, s.bpt.held ≠ .stall a n) : (finish b w).mem = s.mem :=
  (mem_of_unreported (finish_unreported b w fun a n held => free a n ((stalled_of_outer outer).mp held))).trans
    (mem_of_outer outer)

/-- Without a stalled write all but memory, the bus path and the postings is as the event leaves it. -/
theorem finish_free (outer : w.outer = s.outer) (free : ∀ a n, s.bpt.held ≠ .stall a n) : Aside w (finish b w) :=
  finish_aside fun a n held _ => absurd ((stalled_of_outer outer).mp held) (free a n)

/-- A part that captures nothing has no stalled write (R26). -/
theorem free_of_not_captures (stall : StallLaw s) (hc : captures s.rc = false) (a : Access) (n : Nat) :
    s.bpt.held ≠ .stall a n := fun held => nomatch hc.symm.trans (stall a n held).2.1

theorem not_captures_closing {c : RoleController} (hr : c.role = .handoff) (hc : c.closing = true) : captures c = false := by
  simp [captures, hr, hc]

theorem not_captures_of_claims {c : RoleController} (h : claims c.role = false) : captures c = false := by
  cases hc : captures c
  · rfl
  · rw [claims_of_captures hc] at h
    cases h

/-! ## The state behind the record -/

theorem heard_rc (hr : s.rc.role ≠ .standby) : (s.heard h).rc = s.rc := by
  rw [State.heard, if_neg hr]

theorem heard_outer (h : HeartbeatFrame) (s : State) : (s.heard h).outer = s.outer := rfl

/-- A claiming part beside which nothing is judged. -/
theorem enters_claiming (hr : w.rc.role ≠ .standby) (eq : peerRoleChanged s.link.peer.role (s.heard h) = w) :
    judgeTakeover (s.linked s.frameCounted) (peerRoleChanged s.link.peer.role (s.heard h)) = w := by
  rw [eq]
  exact judgeTakeover_aside _ hr

/-! ## The pairing decision (R118, R119) -/

theorem decideIfPaired_resumes (holds : decisionHolds s = true) (hr : resumes s = true) :
    decideIfPaired s = beginRefresh s := by
  rw [decideIfPaired, if_pos holds, pairingDecision, if_pos hr]

theorem decideIfPaired_syncs (holds : decisionHolds s = true) (hr : ¬ resumes s = true) :
    decideIfPaired s = beginRefresh (startSync s) := by
  rw [decideIfPaired, if_pos holds, pairingDecision, if_neg hr]

theorem resumes_iff :
    resumes s = true ↔
      s.link.peer.sync = .inSync ∧ s.link.peer.epoch = s.rc.epoch ∧ s.link.peer.gen = s.pass.gen := by
  rw [resumes, decide_eq_true_iff]

theorem beginRefresh_pass (s : State) :
    (beginRefresh s).pass.refreshing = decide (1 ≤ refreshTotal s.windows) ∧ (beginRefresh s).pass.refreshPos = 0 :=
  ⟨rfl, rfl⟩

/-- The decision starts the refresh pass in either case. -/
theorem decideIfPaired_refreshes (holds : decisionHolds s = true) :
    (decideIfPaired s).pass.refreshing = decide (1 ≤ refreshTotal s.windows) ∧ (decideIfPaired s).pass.refreshPos = 0 := by
  by_cases hr : resumes s = true
  · rw [decideIfPaired_resumes holds hr]
    exact beginRefresh_pass s
  · obtain ⟨r, j, p, e, -⟩ := startSync_spec s
    rw [decideIfPaired_syncs holds hr, e]
    exact beginRefresh_pass _

/-! ## The end of a handoff -/

/-- Nothing is judged in the step that began in closing but a silent peer (R142). -/
theorem judgeTakeover_closing (hc : b.rc.closing = true) (hl : peerSilent s = false) : judgeTakeover b s = s := by
  have unjudged : noActiveJudged b s = false := by simp [noActiveJudged, hc]
  rw [judgeTakeover, judgeLost_none hl, judgeNoActive, unjudged]
  rfl

/-- In closing a peer that becomes RELEASED returns the part to ACTIVE (R150; log entry 12). -/
theorem peerRoleChanged_released {old : Role} (hr : s.rc.role = .handoff) (hc : s.rc.closing = true)
    (ho : old ≠ .released) (hp : s.link.peer.role = .released) :
    peerRoleChanged old s = handoffReturns .notPaired (endStreamIf old s) := by
  have apart : s.link.peer.role ≠ .standby := by rw [hp]; nofun
  have ends : ¬ (s.rc.role = .handoff ∧ s.rc.closing = true ∧
      (s.link.peer.role = .takeover ∨ s.link.peer.role = .active)) := by rw [hp]; simp
  rw [peerRoleChanged, if_neg ends, endStreamIf]
  by_cases standby : old = .standby
  · rw [if_pos ⟨standby, apart⟩, if_pos ⟨hr, .inr hp⟩, if_pos standby]
  · rw [if_neg (fun leaves => standby leaves.1), if_neg (fun enters => apart enters.2), if_pos ⟨hr, hc, ho, hp⟩,
      if_neg standby]

/-- In closing a peer in HANDOFF, INIT or STANDBY leaves the handoff as it is (R150; log entry 12). -/
theorem peerRoleChanged_goesOn {old : Role}
    (hp : s.link.peer.role = .handoff ∨ s.link.peer.role = .init ∨ s.link.peer.role = .standby)
    (hc : s.rc.closing = true) :
    peerRoleChanged old s = stopRefresh (abortSync (emptyGoingBack s)) ∨ peerRoleChanged old s = decideIfPaired s ∨
      peerRoleChanged old s = s := by
  have released : s.link.peer.role ≠ .released := by rcases hp with x | x | x <;> rw [x] <;> nofun
  have ends : ¬ (s.rc.role = .handoff ∧ s.rc.closing = true ∧
      (s.link.peer.role = .takeover ∨ s.link.peer.role = .active)) := by rcases hp with x | x | x <;> rw [x] <;> simp
  have returns : ¬ (s.rc.role = .handoff ∧ (s.rc.closing = false ∨ s.link.peer.role = .released)) := by
    rw [hc]
    simp [released]
  rw [peerRoleChanged, if_neg ends]
  by_cases leaves : old = .standby ∧ s.link.peer.role ≠ .standby
  · rw [if_pos leaves, if_neg returns]
    exact .inl rfl
  · rw [if_neg leaves]
    by_cases enters : old ≠ .standby ∧ s.link.peer.role = .standby
    · rw [if_pos enters]
      exact .inr (.inl rfl)
    · rw [if_neg enters, if_neg fun x => released x.2.2.2]
      exact .inr (.inr rfl)

end Sys2Proof.Machine
end

section
open Sys2Proof Sys2Proof.Machine
/-! The steps of HEARTBEAT_RECEIVED, role by role, and the settling of the statement. -/

namespace Sys2Proof.Machine

variable {b s t u w : State} {h : HeartbeatFrame}

/-- The no-active rule judged behind the record of a peer that claims nothing (R142). -/
theorem heard_judged (hr : s.rc.role = .standby) (hc : s.rc.closing = false) (hv : s.link.view = .paired)
    (hp : ¬ (h.role = .active ∨ h.role = .handoff ∨ h.role = .takeover))
    (changed : h.role ≠ s.link.peer.role ∨ h.sync ≠ s.link.peer.sync) (ends : StreamEnds (s.heard h) u) :
    ∃ w, judgeTakeover (s.linked s.frameCounted) u = w ∧ Judged u w := by
  have standby : u.rc.role = .standby := (congrArg (·.role) ends.rc).trans hr
  have view : u.link.view = .paired := (congrArg (·.view) ends.link).trans hv
  have peer : u.link.peer = heartbeatRecord h := congrArg (·.peer) ends.link
  have silent : peerSilent u = false :=
    Bool.eq_false_iff.mpr fun lost => nomatch view.symm.trans (peerSilent_iff.mp lost).2.1
  have holds : noActive u = true := by
    refine noActive_iff.mpr ⟨standby, view, ?_⟩
    rw [peer]
    simpa only [heartbeatRecord, not_or] using hp
  have judged : noActiveJudged (s.linked s.frameCounted) u = true := by
    have moved : (s.linked s.frameCounted).link.peer.role ≠ u.link.peer.role ∨
        (s.linked s.frameCounted).link.peer.sync ≠ u.link.peer.sync ∨ (s.linked s.frameCounted).rc.sync ≠ u.rc.sync := by
      rw [peer]
      exact changed.imp Ne.symm fun x => .inl x.symm
    have early : (s.linked s.frameCounted).rc.closing = false := hc
    rw [noActiveJudged, holds, early, decide_eq_true moved, Bool.or_true]
    rfl
  refine ⟨_, ?_, judgeNoActive_judged judged⟩
  rw [judgeTakeover, judgeLost_none silent]

theorem suppressed_of_unreported (h : t.unreported = s.unreported) : t.bpt.suppressed = s.bpt.suppressed := by
  have := congrArg (fun u : State => u.bpt.suppressed) h
  exact this

/-- A stalled write that an event leaves neither suppressed nor queued is driven while BCLK runs (R27). -/
theorem finish_drives {a : Access} {n : Nat} (outer : w.outer = s.outer) (held : s.bpt.held = .stall a n)
    (hs : suppresses w.rc = false) (hq : queuesWrites (stallState w a) = false) (hw : a.write = true)
    (runs : s.rc.bclkQuiet = none) (count : s.bpt.waitCount < 32) :
    (finish b w).bpt.held = .none ∧ (finish b w).mem = memDrive s.mem a ∧
      (finish b w).bpt.suppressed = s.bpt.suppressed := by
  have same := finish_driven (b := b) ((stalled_of_outer outer).mpr held) hs (.inr hq) hw (waitCount_of_outer outer ▸ count)
  rw [if_pos ((bclkQuiet_of_outer outer).trans runs), mem_of_outer outer] at same
  have suppressed : (finish b w).bpt.suppressed = w.bpt.suppressed := (suppressed_of_unreported same).trans rfl
  exact ⟨held_of_unreported same, mem_of_unreported same, suppressed.trans (suppressed_of_outer outer)⟩

/-- What the end of the sequence stream empties and stops (R69). -/
theorem streamEnded_clears (s : State) :
    (∀ k : Slot, (stopRefresh (abortSync (emptyGoingBack s))).journals.states[k] =
        (s.journals.states[k]).map fun _ => .desync) ∧
      (stopRefresh (abortSync (emptyGoingBack s))).journals.queue = [] ∧
      (stopRefresh (abortSync (emptyGoingBack s))).disp.seqClosed =
        (s.disp.seqClosed || (!s.disp.inFlight.isEmpty && decide (s.link.state = .up))) ∧
      (stopRefresh (abortSync (emptyGoingBack s))).pass.phase = .none ∧
      (stopRefresh (abortSync (emptyGoingBack s))).pass.refreshing = false := by
  obtain ⟨x, v, p, e, -, hv⟩ := streamEnded_spec s
  rw [e]
  exact ⟨hv, rfl, rfl, rfl, rfl⟩

/-- In ACTIVE a peer that leaves STANDBY ends the sequence stream, and a stalled write is driven (R27, R69). -/
theorem heard_leaves (b : Bool) (up : s.link.state = .up) (between : s.link.incoming = none) (stall : StallLaw s)
    (active : s.rc.role = .active) (was : s.link.peer.role = .standby) (leaves : h.role ≠ .standby)
    (oldest : h.applied = oldestSeq s) (law : SequenceLaw s) :
    ∃ w, receiveHeartbeat h b s = w ∧
      (finish s w).link = (s.heard h).link ∧ (finish s w).rc = s.rc ∧
      (finish s w).disp.inFlight = [] ∧ (finish s w).journals.queue = [] ∧
      (finish s w).disp.seqClosed = (s.disp.seqClosed || !s.disp.inFlight.isEmpty) ∧
      (finish s w).pass.phase = .none ∧ (finish s w).pass.refreshing = false ∧
      (∀ a n, s.bpt.held = .stall a n → s.rc.bclkQuiet = none → s.bpt.waitCount < 32 →
        (finish s w).bpt.held = .none ∧ (finish s w).mem = memDrive s.mem a ∧
        (finish s w).bpt.suppressed = s.bpt.suppressed) := by
  have rc : (s.heard h).rc = s.rc := heard_rc (by rw [active]; nofun)
  have changes : peerRoleChanged s.link.peer.role (s.heard h) =
      stopRefresh (abortSync (emptyGoingBack (s.heard h))) := by
    rw [was]
    exact peerRoleChanged_leaves (s := s.heard h) (by rw [rc, active]; nofun) leaves
  have ended := streamEnds (s.heard h)
  have flight := streamEnded_inFlight (s.heard h)
  have role := ended.rc.trans rc
  have outer := ended.outer
  have link := ended.link
  obtain ⟨states, queue, closed, phase, refreshing⟩ := streamEnded_clears (s.heard h)
  generalize stopRefresh (abortSync (emptyGoingBack (s.heard h))) = w at *
  have event := receiveHeartbeat_enters b up between oldest
    (enters_claiming (by rw [role, active]; nofun) changes)
    (resolveApplied_emptied law oldest flight (congrArg (·.nextSeq) link))
  have plain : suppresses w.rc = false := by
    rw [role]
    exact suppresses_active active
  obtain ⟨m, q, y, z, i, kept⟩ := finish_aside (b := s) (s := w)
    fun a n _ _ => ⟨fun applying => by (rw [role, active] at applying; cases applying), flight⟩
  refine ⟨_, event, ?_, ?_, ?_, ?_, ?_, ?_, ?_, fun a n held runs count =>
    finish_drives outer held plain (queuesWrites_stallState states a) (stall a n held).1 runs count⟩ <;> rw [kept]
  · exact link
  · exact role
  · exact flight
  · exact queue
  · show w.disp.seqClosed = _
    rw [closed, decide_eq_true (by exact up), Bool.and_true]
    rfl
  · exact phase
  · exact refreshing

/-- The start of a full sync, and of the refresh pass with it (R120, R130). -/
theorem startSync_effect (s : State) :
    (beginRefresh (startSync s)).pass.phase = .passing ∧ (beginRefresh (startSync s)).disp.syncBeginArm = true ∧
      (beginRefresh (startSync s)).rts.outstanding = totalRecords s.windows := ⟨rfl, rfl, rfl⟩

/-- In ACTIVE a peer that enters STANDBY brings the pairing decision (R118, R119). -/
theorem heard_decides (b : Bool) (up : s.link.state = .up) (between : s.link.incoming = none)
    (active : s.rc.role = .active) (was : s.link.peer.role ≠ .standby) (enters : h.role = .standby)
    (idle : s.disp.inFlight = []) (next : h.applied = s.link.nextSeq) :
    ∃ w, receiveHeartbeat h b s = w ∧
      (finish s w).link = (s.heard h).link ∧ (finish s w).rc = s.rc ∧
      (finish s w).pass.refreshing = decide (1 ≤ refreshTotal s.windows) ∧ (finish s w).pass.refreshPos = 0 ∧
      (h.sync = .inSync → h.epoch = s.rc.epoch → h.gen = s.pass.gen →
        (finish s w).pass.phase = s.pass.phase ∧ (finish s w).disp.syncBeginArm = s.disp.syncBeginArm ∧
        (finish s w).rts = s.rts) ∧
      (¬ (h.sync = .inSync ∧ h.epoch = s.rc.epoch ∧ h.gen = s.pass.gen) →
        (finish s w).pass.phase = .passing ∧ (finish s w).disp.syncBeginArm = true ∧
        (finish s w).rts.outstanding = totalRecords s.windows) := by
  have rc : (s.heard h).rc = s.rc := heard_rc (by rw [active]; nofun)
  have changes : peerRoleChanged s.link.peer.role (s.heard h) = decideIfPaired (s.heard h) :=
    peerRoleChanged_enters (s := s.heard h) was enters
  have holds : decisionHolds (s.heard h) = true :=
    decisionHolds_iff.mpr ⟨⟨up, enters⟩, .inl ((congrArg (·.role) rc).trans active)⟩
  obtain ⟨refreshing, pos⟩ := decideIfPaired_refreshes holds
  obtain ⟨r, j, d, p, e, -, flight⟩ := decideIfPaired_spec (s.heard h)
  have role : (decideIfPaired (s.heard h)).rc = s.rc := by rw [e]; exact rc
  have link : (decideIfPaired (s.heard h)).link = (s.heard h).link := by rw [e]
  have empty : (decideIfPaired (s.heard h)).disp.inFlight = [] := by rw [e]; exact flight.trans idle
  have event := receiveHeartbeat_enters b up between (next.trans (oldestSeq_empty idle).symm)
    (enters_claiming (by rw [role, active]; nofun) changes)
    (resolveApplied_oldest (next.trans ((oldestSeq_empty empty).trans (congrArg (·.nextSeq) link)).symm))
  obtain ⟨m, q, y, z, i, kept⟩ := finish_aside (b := s) (s := decideIfPaired (s.heard h))
    fun a n _ _ => ⟨fun applying => by (rw [role, active] at applying; cases applying), empty⟩
  refine ⟨_, event, ?_⟩
  rw [kept]
  refine ⟨link, role, refreshing, pos, fun sync epoch gen => ?_, fun other => ?_⟩
  · have resumed : resumes (s.heard h) = true := resumes_iff.mpr ⟨sync, by rw [rc]; exact epoch, gen⟩
    rw [decideIfPaired_resumes holds resumed]
    exact ⟨rfl, rfl, rfl⟩
  · have syncs : ¬ resumes (s.heard h) = true := fun resumed => by
      obtain ⟨sync, epoch, gen⟩ := resumes_iff.mp resumed
      rw [rc] at epoch
      exact other ⟨sync, epoch, gen⟩
    rw [decideIfPaired_syncs holds syncs]
    exact startSync_effect (s.heard h)

/-- What the end of a handoff shows: the Role Controller `c` and the result `r`. -/
structure HandoffEnds (h : HeartbeatFrame) (c : RoleController) (r : ResultCode) (s w : State) : Prop where
  link    : w.link = (s.heard h).link
  rc      : w.rc = c
  running : w.csu.running = none
  result  : w.csu.result = switchoverEnds r
  outer   : w.outer = s.outer

theorem HandoffEnds.shown {c : RoleController} {r : ResultCode} (ends : HandoffEnds h c r s w)
    (empty : ∀ a n, w.bpt.held = .stall a n → suppresses w.rc = false →
      (applies w.rc.role = true → w.apply.queue = []) ∧ w.disp.inFlight = []) :
    (finish b w).link = (s.heard h).link ∧ (finish b w).rc = c ∧ (finish b w).csu.running = none ∧
      (finish b w).csu.result = switchoverEnds r ∧
      ((∀ a n, s.bpt.held ≠ .stall a n) → (finish b w).mem = s.mem) := by
  have memory := finish_mem (b := b) ends.outer
  obtain ⟨m, q, y, z, i, kept⟩ := finish_aside (b := b) empty
  refine ⟨?_, ?_, ?_, ?_, memory⟩ <;> rw [kept]
  exacts [ends.link, ends.rc, ends.running, ends.result]

/-- A handoff that returns to ACTIVE, behind the end of the sequence stream or without it (R150). -/
theorem handoffReturns_ends (r : ResultCode) (outer : u.outer = s.outer) (rc : u.rc = s.rc)
    (link : u.link = (s.heard h).link) (hr : s.rc.role = .handoff) (claim : ClaimLaw s)
    (runs : u.csu.running = some .switchover) :
    HandoffEnds h { s.rc with role := .active, closing := false, handoff := none } r s (handoffReturns r u) ∧
      (handoffReturns r u).disp.inFlight = u.disp.inFlight := by
  have claim' : ClaimLaw u := by
    unfold ClaimLaw
    rw [rc]
    exact claim
  obtain ⟨q, x, e⟩ := handoffReturns_eq r (by rw [rc]; exact hr) claim' runs
  rw [e]
  exact ⟨⟨link, by rw [rc], rfl, rfl, outer⟩, rfl⟩

/-- The state behind the record of a part in HANDOFF. -/
theorem heard_handoff (hr : s.rc.role = .handoff) : (s.heard h).rc = s.rc := heard_rc (by rw [hr]; nofun)

/-- Before closing a peer that leaves STANDBY returns the part to ACTIVE (R150). -/
theorem heard_returns (b : Bool) (up : s.link.state = .up) (between : s.link.incoming = none)
    (hr : s.rc.role = .handoff) (hc : s.rc.closing = false) (role : RoleLaw s) (was : s.link.peer.role = .standby)
    (leaves : h.role ≠ .standby) (oldest : h.applied = oldestSeq s) (law : SequenceLaw s) :
    ∃ w, receiveHeartbeat h b s = w ∧ w.disp.inFlight = [] ∧
      HandoffEnds h { s.rc with role := .active, closing := false, handoff := none } .notPaired s w := by
  have ended := streamEnds (s.heard h)
  have rc := heard_handoff (h := h) hr
  obtain ⟨ends, flight⟩ := handoffReturns_ends (h := h) (s := s) .notPaired ended.outer (ended.rc.trans rc) ended.link hr role.claim
    (ended.running.trans (role.handoff.mp hr))
  rw [streamEnded_inFlight] at flight
  have changes : peerRoleChanged s.link.peer.role (s.heard h) =
      handoffReturns .notPaired (stopRefresh (abortSync (emptyGoingBack (s.heard h)))) := by
    rw [was]
    exact peerRoleChanged_returns (s := s.heard h) (by rw [rc]; exact hr) (by rw [rc]; exact hc) leaves
  refine ⟨_, receiveHeartbeat_enters b up between oldest (enters_claiming (by rw [ends.rc]; nofun) changes) ?_, flight,
    ends⟩
  exact resolveApplied_emptied law oldest flight (congrArg (·.nextSeq) ends.link)

/-- In closing a peer that becomes RELEASED returns the part to ACTIVE (R150). -/
theorem heard_released (b : Bool) (up : s.link.state = .up) (between : s.link.incoming = none)
    (hr : s.rc.role = .handoff) (hc : s.rc.closing = true) (role : RoleLaw s) (was : s.link.peer.role ≠ .released)
    (becomes : h.role = .released) (oldest : h.applied = oldestSeq s) (law : SequenceLaw s) :
    ∃ w, receiveHeartbeat h b s = w ∧
      HandoffEnds h { s.rc with role := .active, closing := false, handoff := none } .notPaired s w := by
  have rc := heard_handoff (h := h) hr
  have ended := endStreamIf_ends s.link.peer.role (s.heard h)
  obtain ⟨ends, flight⟩ := handoffReturns_ends (h := h) (s := s) .notPaired ended.outer (ended.rc.trans rc) ended.link hr role.claim
    (ended.running.trans (role.handoff.mp hr))
  have changes : peerRoleChanged s.link.peer.role (s.heard h) =
      handoffReturns .notPaired (endStreamIf s.link.peer.role (s.heard h)) :=
    peerRoleChanged_released (s := s.heard h) (by rw [rc]; exact hr) (by rw [rc]; exact hc) was becomes
  refine ⟨_, receiveHeartbeat_enters b up between oldest (enters_claiming (by rw [ends.rc]; nofun) changes) ?_, ends⟩
  have next := congrArg (·.nextSeq) ends.link
  unfold endStreamIf at flight next ⊢
  split at flight
  · next standby =>
    rw [if_pos standby] at next ⊢
    exact resolveApplied_emptied law oldest (flight.trans (streamEnded_inFlight _)) next
  · next standby =>
    rw [if_neg standby] at next ⊢
    exact resolveApplied_oldest (oldest.trans (oldestSeq_congr flight next).symm)

/-- In closing a peer in TAKEOVER or ACTIVE ends the handoff with success (R148). -/
theorem heard_succeeds (b : Bool) (up : s.link.state = .up) (between : s.link.incoming = none)
    (hr : s.rc.role = .handoff) (hc : s.rc.closing = true) (role : RoleLaw s) (link : LinkLaw s)
    (becomes : h.role = .takeover ∨ h.role = .active) (oldest : h.applied = oldestSeq s) (law : SequenceLaw s) :
    ∃ w, receiveHeartbeat h b s = w ∧
      HandoffEnds h { s.rc with
        role := .standby, closing := false, handoff := none, sync := .inSync, claimOut := false, dual := .stopped
        epoch := if h.role = .active then h.epoch else maxEpoch s.rc.epoch h.epoch + 1 } .ok s w := by
  have rc := heard_handoff (h := h) hr
  have outer := handoffSucceeds_outer (s.heard h)
  obtain ⟨v, d, x, c, e, running, result, -⟩ := handoffSucceeds_eq (s := s.heard h) (role.handoff.mp hr)
  have changes : peerRoleChanged s.link.peer.role (s.heard h) = handoffSucceeds (s.heard h) :=
    if_pos ⟨(congrArg (·.role) rc).trans hr, (congrArg (·.closing) rc).trans hc, becomes⟩
  have seen : (handoffSucceeds (s.heard h)).link = (s.heard h).link := by
    rw [e]
    exact up_seen (l := (s.heard h).link) up
  have given : (handoffSucceeds (s.heard h)).rc = { s.rc with
      role := .standby, closing := false, handoff := none, sync := .inSync, claimOut := false, dual := .stopped
      epoch := if h.role = .active then h.epoch else maxEpoch s.rc.epoch h.epoch + 1 } := by
    rw [e]
    show ({ (s.heard h).rc with
      role := .standby, closing := false, handoff := none, sync := .inSync, claimOut := false, dual := .stopped
      epoch := if h.role = .active then h.epoch else maxEpoch (s.heard h).rc.epoch h.epoch + 1 } : RoleController) = _
    rw [rc]
  have empty : (handoffSucceeds (s.heard h)).disp.inFlight = [] := by rw [e]; rfl
  have silent : peerSilent (handoffSucceeds (s.heard h)) = false := by
    refine Bool.eq_false_iff.mpr fun lost => ?_
    have view := (peerSilent_iff.mp lost).2.1
    rw [seen] at view
    exact nomatch (link.mpr up).symm.trans view
  refine ⟨_, receiveHeartbeat_enters b up between oldest ?_
    (resolveApplied_emptied law oldest empty (congrArg (·.nextSeq) seen)), seen, given, ?_, ?_, outer⟩
  · rw [changes]
    exact judgeTakeover_closing hc silent
  · rw [e]
    exact running
  · rw [e]
    exact result

/-- In closing a peer in HANDOFF, INIT or STANDBY leaves the handoff as it is (R150). -/
theorem heard_goesOn (b : Bool) (up : s.link.state = .up) (between : s.link.incoming = none)
    (hr : s.rc.role = .handoff) (hc : s.rc.closing = true)
    (becomes : h.role = .handoff ∨ h.role = .init ∨ h.role = .standby) (oldest : h.applied = oldestSeq s)
    (law : SequenceLaw s) :
    ∃ w, receiveHeartbeat h b s = w ∧ w.link = (s.heard h).link ∧ w.rc = s.rc ∧ w.csu.result = s.csu.result ∧
      w.csu.running = s.csu.running ∧ w.outer = s.outer := by
  have rc := heard_handoff (h := h) hr
  have event (w : State) (eq : peerRoleChanged s.link.peer.role (s.heard h) = w) (ends : w.rc = s.rc)
      (resolves : resolveApplied h.applied w = w) : receiveHeartbeat h b s = w :=
    receiveHeartbeat_enters b up between oldest (enters_claiming (by rw [ends, hr]; nofun) eq) resolves
  rcases peerRoleChanged_goesOn (s := s.heard h) (old := s.link.peer.role) becomes ((congrArg (·.closing) rc).trans hc) with
    ended | decides | stands
  · have ends := streamEnds (s.heard h)
    exact ⟨_, event _ ended (ends.rc.trans rc) (resolveApplied_emptied law oldest (streamEnded_inFlight _)
      (congrArg (·.nextSeq) ends.link)), ends.link, ends.rc.trans rc, ends.result, ends.running, ends.outer⟩
  · obtain ⟨r, j, d, p, e, -, flight⟩ := decideIfPaired_spec (s.heard h)
    have same : oldestSeq (decideIfPaired (s.heard h)) = oldestSeq s :=
      oldestSeq_congr (by rw [e]; exact flight) (by rw [e]; rfl)
    have taken := event _ decides (by rw [e]; exact rc) (resolveApplied_oldest (oldest.trans same.symm))
    rw [e] at taken
    exact ⟨_, taken, rfl, rc, rfl, rfl, rfl⟩
  · exact ⟨_, event _ stands rc (resolveApplied_oldest oldest), rfl, rc, rfl, rfl, rfl⟩

/-- A TAKEOVER or RELEASED part only enters the record (R94). -/
theorem heard_aside (b : Bool) (up : s.link.state = .up) (between : s.link.incoming = none)
    (hr : s.rc.role = .takeover ∨ s.rc.role = .released) (idle : s.disp.inFlight = []) (next : h.applied = s.link.nextSeq) :
    ∃ w, receiveHeartbeat h b s = w ∧ StreamEnds (s.heard h) w ∧ w.disp.inFlight = [] ∧
      w.disp.seqClosed = s.disp.seqClosed ∧ w.rts.tags = s.rts.tags ∧
      (s.link.peer.role ≠ .standby ∨ h.role = .standby → w = s.heard h) := by
  have rc : (s.heard h).rc = s.rc := heard_rc (by rcases hr with x | x <;> rw [x] <;> nofun)
  have idles : claims (s.heard h).rc.role = false := by
    rw [rc]
    rcases hr with x | x <;> rw [x] <;> rfl
  have ends := peerRoleChanged_ends s.link.peer.role idles
  have flight := peerRoleChanged_inFlight s.link.peer.role idles idle
  have event := receiveHeartbeat_enters b up between (next.trans (oldestSeq_empty idle).symm)
    (enters_claiming (by rw [ends.rc, rc]; rcases hr with x | x <;> rw [x] <;> nofun) rfl)
    (resolveApplied_oldest (next.trans ((oldestSeq_empty flight).trans (congrArg (·.nextSeq) ends.link)).symm))
  refine ⟨_, event, ends, flight, ?_⟩
  rw [peerRoleChanged_idle _ idles]
  split
  · next leaves =>
    obtain ⟨x, v, p, e, tags, -⟩ := streamEnded_spec (s.heard h)
    have stays (other : s.link.peer.role ≠ .standby ∨ h.role = .standby) : False := by
      rcases other with x | x
      · exact x leaves.1
      · exact leaves.2 x
    rw [e]
    refine ⟨?_, tags idle, fun other => (stays other).elim⟩
    show (s.disp.seqClosed || (!s.disp.inFlight.isEmpty && _)) = _
    simp [idle]
  · exact ⟨rfl, rfl, fun _ => rfl⟩

end Sys2Proof.Machine

/-- Settles O35: the record first, by the role and the change of the peer's, then the applied sequence, which acknowledges
nothing, then the end of the step. -/
theorem heartbeatEntered : Obligations.HeartbeatEntered := by
  intro h b s ⟨stall, noRoom⟩ loud between record counted epoch entered claimed
  refine ⟨fun down checks => ?_, fun off => ?_, fun train early => ?_, fun up paired same oldest early quiet => ?_,
    fun up paired early standby unclaimed idle next changed => ?_, fun up active was leaves oldest law => ?_,
    fun up active was enters idle next => ?_, fun up handoff oldest law role link => ?_,
    fun up active was apart oldest => ?_, fun up aside idle next => ?_, fun up waits hands same => ?_⟩
  · have event : receiveHeartbeat h b s = s.linked s.frameCounted := by
      rw [receiveHeartbeat, if_pos checks, countFrame_between between, takeHeartbeat, if_neg (by exact down)]
      rfl
    exact ⟨_, exec_heartbeat b noRoom event, finish_keeps (w := s.linked s.frameCounted) stall⟩
  · have event : receiveHeartbeat h b s = s := by
      rw [receiveHeartbeat, if_neg (by simp [checksFrames, off]), passFrame, if_neg (by rw [off]; nofun)]
    exact ⟨_, exec_heartbeat b noRoom event, finish_keeps stall⟩
  · have event : receiveHeartbeat h b s = s.onLink fun l => { l with alignCount := 0 } := by
      rw [receiveHeartbeat, if_neg (by simp [checksFrames, train, early]), passFrame, if_pos train]
    exact ⟨_, exec_heartbeat b noRoom event, finish_keeps (w := s.onLink fun l => { l with alignCount := 0 }) stall⟩
  · have enters : judgeTakeover (s.linked s.frameCounted) (peerRoleChanged s.link.peer.role (s.heard h)) = s.heard h := by
      have kept : peerRoleChanged s.link.peer.role (s.heard h) = s.heard h := by
        rw [← same]
        exact peerRoleChanged_same (s := s.heard h) fun _ => early
      rw [kept]
      exact heard_unjudged paired same quiet
    have event := receiveHeartbeat_enters b up between oldest enters (resolveApplied_oldest oldest)
    exact ⟨_, exec_heartbeat b noRoom event, finish_keeps (w := s.heard h) stall⟩
  · have idles : claims (s.heard h).rc.role = false := by rw [State.heard, standby]; rfl
    have ends := peerRoleChanged_ends s.link.peer.role idles
    have flight := peerRoleChanged_inFlight s.link.peer.role idles idle
    have notice : Shows Notice.noActive.bit (s.csu.pendingSet.getLsbD Notice.noActive.bit)
        (peerRoleChanged s.link.peer.role (s.heard h)) :=
      Shows.peerRoleChanged (s := s.heard h) ⟨.inr (by decide), rfl⟩
    obtain ⟨w, enters, judged⟩ := heard_judged standby early paired unclaimed changed ends
    have oldest : h.applied = oldestSeq w :=
      next.trans (((oldestSeq_empty (judged.flight flight)).trans
        (congrArg (·.nextSeq) (judged.link.trans ends.link))).symm)
    have event := receiveHeartbeat_enters b up between (next.trans (oldestSeq_empty idle).symm) enters
      (resolveApplied_oldest oldest)
    have outer := judged.outer.trans ends.outer
    have free := free_of_not_captures stall (not_captures_of_claims (by rw [standby]; rfl))
    exact judged.shown (exec_heartbeat b noRoom event)
      (finish_unreported s w fun a n held => free a n ((stalled_of_outer outer).mp held)) ends.link ends.apply ends.windows
      (mem_of_outer ends.outer) ends.rc ends.timing notice.bit
  · obtain ⟨w, event, left⟩ := heard_leaves b up between stall active was leaves oldest law
    exact ⟨_, exec_heartbeat b noRoom event, left⟩
  · obtain ⟨w, event, left⟩ := heard_decides b up between active was enters idle next
    exact ⟨_, exec_heartbeat b noRoom event, left⟩
  · have free (closing : s.rc.closing = true) := free_of_not_captures stall (not_captures_closing handoff closing)
    intro ends kept given
    have shown (c : RoleController) (r : ResultCode) (w : State) (event : receiveHeartbeat h b s = w)
        (done : HandoffEnds h c r s w)
        (empty : ∀ a n, w.bpt.held = .stall a n → suppresses w.rc = false →
          (applies w.rc.role = true → w.apply.queue = []) ∧ w.disp.inFlight = []) : ends c r :=
      ⟨_, exec_heartbeat b noRoom event, done.shown empty⟩
    refine ⟨fun early was leaves => ?_, fun closing becomes => ?_, fun closing was becomes => ?_, fun closing becomes => ?_⟩
    · obtain ⟨w, event, flight, ends⟩ := heard_returns b up between handoff early role was leaves oldest law
      exact shown _ _ w event ends fun a n _ _ => ⟨fun applying => by (rw [ends.rc] at applying; cases applying), flight⟩
    · obtain ⟨w, event, ends⟩ := heard_succeeds b up between handoff closing role link becomes oldest law
      exact shown _ _ w event ends fun a n held _ => absurd ((stalled_of_outer ends.outer).mp held) (free closing a n)
    · obtain ⟨w, event, ends⟩ := heard_released b up between handoff closing role was becomes oldest law
      exact shown _ _ w event ends fun a n held _ => absurd ((stalled_of_outer ends.outer).mp held) (free closing a n)
    · obtain ⟨w, event, link, rc, result, running, outer⟩ := heard_goesOn b up between handoff closing becomes oldest law
      obtain ⟨m, q, y, z, i, kept⟩ := finish_free (b := s) outer (free closing)
      refine ⟨_, exec_heartbeat b noRoom event, ?_⟩
      rw [kept]
      exact ⟨link, rc, result, running⟩
  · have rc : (s.heard h).rc = s.rc := heard_rc (by rw [active]; nofun)
    have changes : peerRoleChanged s.link.peer.role (s.heard h) = s.heard h :=
      peerRoleChanged_apart (by rw [rc, active]; nofun) was apart
    have event := receiveHeartbeat_enters b up between oldest
      (enters_claiming (by rw [rc, active]; nofun) changes) (resolveApplied_oldest oldest)
    exact ⟨_, exec_heartbeat b noRoom event, finish_keeps (w := s.heard h) stall⟩
  · obtain ⟨w, event, ends, flight, closed, tags, stays⟩ := heard_aside b up between aside idle next
    have rc : (s.heard h).rc = s.rc := heard_rc (by rcases aside with x | x <;> rw [x] <;> nofun)
    have free := free_of_not_captures stall
      (not_captures_of_claims (by rcases aside with x | x <;> rw [x] <;> rfl))
    have memory := finish_mem (b := s) (s := s) ends.outer free
    have view := finish_unreported s w fun a n held => free a n ((stalled_of_outer (s := s) ends.outer).mp held)
    obtain ⟨m, q, y, z, i, kept⟩ := finish_free (b := s) (s := s) ends.outer free
    refine ⟨_, exec_heartbeat b noRoom event, fun other => ?_, ?_, ?_, ?_, memory, ?_, ?_, ?_, ?_⟩
    · rw [view, stays other]
      rfl
    all_goals rw [kept]
    exacts [ends.link, ends.rc.trans rc, ends.apply, ends.windows, flight, closed, tags]
  · exact congrArg Host.Outcome.next ((takeEvent_noRoom noRoom).trans ((congrArg (finish s)
      (receiveHeartbeat_same b up between waits hands same)).trans (takeEvent_noRoom noRoom).symm))
end

section
open Sys2Proof Sys2Proof.Machine
/-! The completion of the head of the apply queue, and of the entries behind it that complete with it (R104, R107, R109 to
R113). -/

namespace Sys2Proof.Machine

variable {s t u v : State} {f g : SeqFrame} {rest : List SeqFrame}

/-! ## The state behind a completion -/

/-- The hold once the queue has been cut to `left`: a held read that `left` does not cover is released (R29). -/
def heldAfter (s : State) (left : List SeqFrame) : Held :=
  match s.bpt.held with
  | .read x =>
    if covered s x && !left.any fun g => coversAddr s.windows x.toNat g.body then .port ⟨false, x, 0, 0, 0⟩ else .read x
  | h => h

/-- The effects `v` of the entries that have left the queue of `s`, with `left` behind them. -/
def settledQueue (s v : State) (left : List SeqFrame) : State :=
  { v with
    bpt := { v.bpt with held := heldAfter s left }
    apply := { v.apply with queue := left, written := 0, merged := none }
    link := { v.link with
      seen := v.link.seen || decide (v.link.state = .hello ∧ v.link.helloPassed = true ∧ left = []) } }

theorem headDone_eq (s u : State) (rest : List SeqFrame) :
    headDone s u rest =
      settledQueue s ((rest.takeWhile fun g => immediate g.body).foldl entryApplied u)
        (rest.dropWhile fun g => immediate g.body) := rfl

theorem heldAfter_read {x : Addr} (h : s.bpt.held = .read x) (left : List SeqFrame) :
    heldAfter s left =
      if covered s x && !left.any (fun g => coversAddr s.windows x.toNat g.body) then .port ⟨false, x, 0, 0, 0⟩
      else .read x := by
  rw [heldAfter, h]

theorem heldAfter_other (h : ∀ x, s.bpt.held ≠ .read x) (left : List SeqFrame) : heldAfter s left = s.bpt.held := by
  unfold heldAfter
  split
  · next x held => exact absurd held (h x)
  · rfl

/-- The entry `f` has left the queue of `s`, its effects still to come. -/
def leftBehind (s : State) (f : SeqFrame) (rest : List SeqFrame) : State :=
  { s with
    bpt := { s.bpt with held := heldAfter s rest }
    apply := { s.apply with queue := rest, written := 0, merged := none, applied := f.seq + 1 } }

/-- The read that an entry alone covered is released with its departure (R29). -/
theorem freeRead_left (f : SeqFrame) (rest : List SeqFrame) (n : Nat) (s : State) :
    freeRead (s.onApply fun a => { a with written := n })
        ((s.onApply fun a => { a with written := n }).onApply fun a =>
          { a with queue := rest, written := 0, merged := none, applied := f.seq + 1 }) =
      leftBehind s f rest := by
  obtain ⟨h, e, -, other, read⟩ := freeRead_spec (s.onApply fun a => { a with written := n })
    ((s.onApply fun a => { a with written := n }).onApply fun a =>
      { a with queue := rest, written := 0, merged := none, applied := f.seq + 1 })
  have hold : h = heldAfter s rest := by
    by_cases reads : ∃ x, s.bpt.held = .read x
    · obtain ⟨x, held⟩ := reads
      rw [read x held, heldAfter_read held]
      refine if_congr ?_ rfl rfl
      rw [Bool.and_eq_true, Bool.not_eq_true']
      rfl
    · exact (other fun x held => reads ⟨x, held⟩).trans (heldAfter_other (fun x held => reads ⟨x, held⟩) rest).symm
  rw [e, hold]
  rfl

/-- An ACK waits in UP where A is not the one last carried (R110). -/
theorem queueAck_eq (s : State) :
    queueAck s = s.onLink fun l =>
      { l with ackWaiting := l.ackWaiting || decide (s.link.state = .up ∧ s.apply.applied ≠ s.apply.lastAck) } := by
  unfold queueAck
  split
  · next waits => rw [decide_eq_true waits]; simp [State.onLink]
  · next idle => rw [decide_eq_false idle]; simp [State.onLink]

/-- The seen flag follows an empty queue in HELLO (R83). -/
theorem settleSeen_eq (s : State) :
    settleSeen s = s.onLink fun l =>
      { l with seen := l.seen || decide (s.link.state = .hello ∧ s.link.helloPassed = true ∧ s.apply.queue = []) } := by
  unfold settleSeen
  split
  · next empty => rw [decide_eq_true empty]; simp [State.onLink]
  · next stands => rw [decide_eq_false stands]; simp [State.onLink]

theorem completeHead_eq (f : SeqFrame) (rest : List SeqFrame) (n : Nat) (s : State) :
    completeHead f rest (s.onApply fun a => { a with written := n }) =
      settleSeen (queueAck (completionEffects f.body s.apply.merged (leftBehind s f rest))) := by
  rw [completeHead, freeRead_left]
  rfl

/-- A HANDOVER on a part that applies, but for the posting of its role (R113, R137, R144). -/
theorem handoverApplied_eq (e : Epoch) (s : State) :
    ∃ q, handoverApplied e s =
      if s.rc.role = .standby then
        { s with
          link := { s.link with peer := { s.link.peer with epoch := e } }
          rc := { s.rc with role := .takeover, claimOut := false, dual := .stopped, epoch := maxEpoch s.rc.epoch e }
          csu := { s.csu with pendingSet := s.csu.pendingSet ||| Notice.roleChanged.mask, postQueue := q } }
      else { s with link := { s.link with peer := { s.link.peer with epoch := e } } } := by
  unfold handoverApplied
  split
  · obtain ⟨q, role, -⟩ := setRole_posts .takeover
      (adoptEpoch (s.onLink fun l => { l with peer := { l.peer with epoch := e } }))
    exact ⟨q, role⟩
  · exact ⟨[], rfl⟩

/-- A journal word counts in its slot, and a merge over an uncorrectable read is reported (R107, R111). -/
theorem completeWord_eq (k : Slot) (o : Nat) (merged : Option (DWord × ReadClass)) (s : State) :
    completeWord k o merged s =
      if merged.map Prod.snd = some .uncorrectable then
        reportDiscard .journalWord k o (s.onApply fun a => { a with counts := a.counts.set k (a.counts[k] + 1) })
      else s.onApply fun a => { a with counts := a.counts.set k (a.counts[k] + 1) } := by
  rcases merged with _ | ⟨x, c⟩
  · rfl
  · cases c <;> rfl

/-- Only a partial word has made a merge read (R107). -/
theorem merged_reported (m : Byte) (merged : Option (DWord × ReadClass)) :
    ((if m = 0 ∨ m = 0xFF then none else merged).map Prod.snd = some .uncorrectable) =
      (m ≠ 0 ∧ m ≠ 0xFF ∧ merged.map Prod.snd = some .uncorrectable) := by
  by_cases full : m = 0 ∨ m = 0xFF
  · rw [if_pos full]
    rcases full with rfl | rfl <;> simp
  · rw [if_neg full]
    obtain ⟨some_byte, not_all⟩ := not_or.mp full
    exact propext ⟨fun lost => ⟨some_byte, not_all, lost⟩, fun lost => lost.2.2⟩

/-- The completion of an entry, in the view of a statement: its own effect, and the queue cut (R109). -/
theorem completeHead_unreported (f : SeqFrame) (rest : List SeqFrame) (n : Nat) (s : State) :
    (completeHead f rest (s.onApply fun a => { a with written := n })).unreported =
      (settledQueue s (entryApplied s f) rest).unreported := by
  rw [completeHead_eq, settleSeen_eq, queueAck_eq]
  cases body : f.body with
  | record k i ws => simp only [entryApplied, body]; rfl
  | tombstone k i => simp only [entryApplied, body]; rfl
  | discard k i => simp only [entryApplied, body]; rfl
  | journalWord k o m d =>
    simp only [entryApplied, body, completionEffects, completeWord_eq, merged_reported]
    by_cases lost : m ≠ 0 ∧ m ≠ 0xFF ∧ s.apply.merged.map Prod.snd = some .uncorrectable
    · simp only [if_pos lost]
      rfl
    · simp only [if_neg lost]
      rfl
  | journalBlock k o l w0 w1 w2 w3 =>
    cases l <;> simp only [entryApplied, body] <;> rfl
  | syncBegin => simp only [entryApplied, body]; rfl
  | syncDone g => simp only [entryApplied, body]; rfl
  | handover e =>
    obtain ⟨q, h⟩ := handoverApplied_eq e (leftBehind s f rest)
    have role : (leftBehind s f rest).rc.role = s.rc.role := rfl
    simp only [entryApplied, body, completionEffects, h, role]
    by_cases standby : s.rc.role = .standby
    · simp only [if_pos standby]
      rfl
    · simp only [if_neg standby]
      rfl

/-! ## The entries behind it -/

theorem entryApplied_unreported (s : State) (f : SeqFrame) :
    (entryApplied s f).unreported = entryApplied s.unreported f := by
  cases body : f.body with
  | journalWord k o m d =>
    simp only [entryApplied, body]
    by_cases lost : m ≠ 0 ∧ m ≠ 0xFF ∧ s.apply.merged.map Prod.snd = some .uncorrectable
    · have lost' : m ≠ 0 ∧ m ≠ 0xFF ∧ s.unreported.apply.merged.map Prod.snd = some .uncorrectable := lost
      rw [if_pos lost, if_pos lost']
      rfl
    · have lost' : ¬ (m ≠ 0 ∧ m ≠ 0xFF ∧ s.unreported.apply.merged.map Prod.snd = some .uncorrectable) := lost
      rw [if_neg lost, if_neg lost']
      rfl
  | journalBlock k o l w0 w1 w2 w3 => cases l <;> simp only [entryApplied, body] <;> rfl
  | handover e =>
    simp only [entryApplied, body]
    by_cases standby : s.rc.role = .standby
    · have standby' : s.unreported.rc.role = .standby := standby
      rw [if_pos standby, if_pos standby']
      rfl
    · have standby' : ¬ s.unreported.rc.role = .standby := standby
      rw [if_neg standby, if_neg standby']
      rfl
  | _ => simp only [entryApplied, body]; rfl

theorem settledQueue_unreported (s v : State) (left : List SeqFrame) :
    (settledQueue s v left).unreported = settledQueue s.unreported v.unreported left := rfl

/-- With entries left no seen flag follows (R83). -/
theorem settledQueue_cons (s v : State) (g : SeqFrame) (l : List SeqFrame) :
    settledQueue s v (g :: l) =
      { v with
        bpt := { v.bpt with held := heldAfter s (g :: l) }
        apply := { v.apply with queue := g :: l, written := 0, merged := none } } := by
  have stands : decide (v.link.state = .hello ∧ v.link.helloPassed = true ∧ g :: l = []) = false :=
    decide_eq_false fun empty => nomatch empty.2.2
  rw [settledQueue, stands, Bool.or_false]

/-- The hold by the cut of a queue is the hold by its parts in turn (R29). -/
theorem heldAfter_next (hq : ∀ x ∈ g :: rest, x ∈ s.apply.queue) (hw : u.windows = s.windows) :
    heldAfter (settledQueue s u (g :: rest)) rest = heldAfter s rest := by
  by_cases reads : ∃ x, s.bpt.held = .read x
  · obtain ⟨x, held⟩ := reads
    have covers : (g :: rest).any (fun y => coversAddr s.windows x.toNat y.body) = true → covered s x = true := by
      intro some_covers
      obtain ⟨y, member, cover⟩ := List.any_eq_true.mp some_covers
      exact List.any_eq_true.mpr ⟨y, hq y member, cover⟩
    have behind : rest.any (fun y => coversAddr s.windows x.toNat y.body) = true →
        (g :: rest).any (fun y => coversAddr s.windows x.toNat y.body) = true := by
      intro some_covers
      rw [List.any_cons, some_covers, Bool.or_true]
    have cut : (settledQueue s u (g :: rest)).bpt.held = heldAfter s (g :: rest) := rfl
    have windows : (settledQueue s u (g :: rest)).windows = s.windows := hw
    have still : covered (settledQueue s u (g :: rest)) x =
        (g :: rest).any fun y => coversAddr s.windows x.toNat y.body := by
      rw [covered, windows]
      rfl
    rw [heldAfter_read held] at cut
    rw [heldAfter_read held]
    cases all : (g :: rest).any fun y => coversAddr s.windows x.toNat y.body with
    | true =>
      rw [all, Bool.not_true, Bool.and_false, if_neg (by decide)] at cut
      rw [heldAfter_read cut, still, all, covers all, windows]
    | false =>
      have none_behind : rest.any (fun y => coversAddr s.windows x.toNat y.body) = false := by
        cases h : rest.any fun y => coversAddr s.windows x.toNat y.body with
        | false => rfl
        | true => exact nomatch all.symm.trans (behind h)
      rw [all] at cut
      rw [none_behind]
      cases cover : covered s x with
      | true =>
        rw [cover] at cut
        exact (heldAfter_other (by rw [cut]; nofun) rest).trans cut
      | false =>
        rw [cover] at cut
        rw [heldAfter_read cut, still, all, Bool.false_and, Bool.false_and]
  · have other (x : Addr) : s.bpt.held ≠ .read x := fun held => reads ⟨x, held⟩
    have cut : (settledQueue s u (g :: rest)).bpt.held = s.bpt.held := heldAfter_other other _
    rw [heldAfter_other other, heldAfter_other (by rw [cut]; exact other), cut]

/-- The entries behind the head complete with it, one after another. -/
theorem settledQueue_next (hg : immediate g.body = true) (hq : ∀ x ∈ g :: rest, x ∈ s.apply.queue)
    (hw : u.windows = s.windows) :
    settledQueue (settledQueue s u (g :: rest)) (entryApplied (settledQueue s u (g :: rest)) g) rest =
      settledQueue s (entryApplied u g) rest := by
  have hold := heldAfter_next hq hw
  have same (v : State) : settledQueue (settledQueue s u (g :: rest)) v rest = settledQueue s v rest := by
    rw [settledQueue, hold]
    rfl
  rw [same, settledQueue_cons]
  cases body : g.body with
  | journalWord k o m d =>
    have empty : m = 0 := by
      rw [body] at hg
      exact of_decide_eq_true hg
    simp only [entryApplied, body, empty, ne_eq, not_true_eq_false, false_and, if_false]
    rfl
  | syncBegin => simp only [entryApplied, body]; rfl
  | syncDone x => simp only [entryApplied, body]; rfl
  | handover e =>
    simp only [entryApplied, body]
    by_cases standby : u.rc.role = .standby
    · simp only [if_pos standby]
      rfl
    · simp only [if_neg standby]
      rfl
  | record | tombstone | discard | journalBlock =>
    rw [body] at hg
    cases hg

theorem entryApplied_windows (s : State) (f : SeqFrame) : (entryApplied s f).windows = s.windows := by
  cases body : f.body with
  | journalBlock k o l w0 w1 w2 w3 => cases l <;> simp only [entryApplied, body] <;> rfl
  | handover e =>
    simp only [entryApplied, body]
    split <;> rfl
  | record | tombstone | discard | journalWord | syncBegin | syncDone => rw [entryApplied, body]

/-- The entries that complete as they become the head, in the view of a statement (R104, R107). -/
theorem completeImmediate_unreported (l : List SeqFrame) {s t u : State} (hq : ∀ x ∈ l, x ∈ s.apply.queue)
    (hw : u.windows = s.windows) (ht : t.unreported = (settledQueue s u l).unreported) :
    (completeImmediate l t).unreported = (headDone s u l).unreported := by
  induction l generalizing t u with
  | nil => exact ht
  | cons g rest ih =>
    rw [headDone_eq]
    cases hg : immediate g.body with
    | false =>
      have stops : completeImmediate (g :: rest) t = t := if_neg (by rw [hg]; decide)
      rw [stops, ht]
      rw [List.takeWhile_cons, List.dropWhile_cons, hg]
      rfl
    | true =>
      have goes : completeImmediate (g :: rest) t = completeImmediate rest (completeHead g rest t) :=
        if_pos hg
      have first : (completeHead g rest t).unreported = (settledQueue s (entryApplied u g) rest).unreported := by
        have done := completeHead_unreported g rest t.apply.written t
        rw [settledQueue_unreported, entryApplied_unreported, ht, ← entryApplied_unreported, ← settledQueue_unreported,
          settledQueue_next hg hq hw] at done
        exact done
      rw [goes, ih (fun x hx => hq x (List.mem_cons_of_mem g hx)) ((entryApplied_windows u g).trans hw) first, headDone_eq]
      rw [List.takeWhile_cons, List.dropWhile_cons, hg]
      rfl

end Sys2Proof.Machine
end

section
open Sys2Proof Sys2Proof.Machine
/-! What follows the completion of the head: the no-active rule, and the promotion of a drained part (R116, R142, R144,
R145). -/

namespace Sys2Proof.Machine

variable {b s t u v w z : State} {c : Instr}

/-! ## What no entry's effect reaches -/

/-- What the two takeover rules read, and the completion of entries leaves alone. -/
structure Leads (s v : State) : Prop where
  view    : v.link.view = s.link.view
  role    : v.link.peer.role = s.link.peer.role
  sync    : v.link.peer.sync = s.link.peer.sync
  timing  : v.csu.timing = s.csu.timing
  claimIn : v.rc.claimIn = s.rc.claimIn
  standby : v.rc.role = .standby → s.rc.role = .standby
  dual    : s.rc.dual = .stopped → v.rc.dual = .stopped
  notice  : v.csu.pendingSet.getLsbD Notice.noActive.bit = s.csu.pendingSet.getLsbD Notice.noActive.bit

namespace Leads

theorem refl (s : State) : Leads s s := ⟨rfl, rfl, rfl, rfl, rfl, id, id, rfl⟩

theorem trans (h : Leads s u) (h' : Leads u v) : Leads s v :=
  ⟨h'.view.trans h.view, h'.role.trans h.role, h'.sync.trans h.sync, h'.timing.trans h.timing,
    h'.claimIn.trans h.claimIn, h.standby ∘ h'.standby, h'.dual ∘ h.dual, h'.notice.trans h.notice⟩

/-- A notice other than NO_ACTIVE. -/
theorem raised {n : Notice} (hn : n.bit ≠ Notice.noActive.bit) (p : BitVec 16) :
    (p ||| n.mask).getLsbD Notice.noActive.bit = p.getLsbD Notice.noActive.bit := by
  simp [BitVec.getLsbD_or, Notice.getLsbD_mask, hn.symm]

theorem entryApplied (s : State) (f : SeqFrame) : Leads s (entryApplied s f) := by
  cases body : f.body with
  | record | tombstone | syncBegin =>
    rw [Machine.entryApplied, body]
    exact ⟨rfl, rfl, rfl, rfl, rfl, id, id, rfl⟩
  | discard k i =>
    rw [Machine.entryApplied, body]
    exact ⟨rfl, rfl, rfl, rfl, rfl, id, id, raised (n := .recordDiscarded) (by decide) _⟩
  | syncDone g =>
    rw [Machine.entryApplied, body]
    exact ⟨rfl, rfl, rfl, rfl, rfl, id, id, raised (n := .syncDone) (by decide) _⟩
  | journalWord k o m d =>
    simp only [Machine.entryApplied, body]
    split
    · exact ⟨rfl, rfl, rfl, rfl, rfl, id, id, raised (n := .recordDiscarded) (by decide) _⟩
    · exact ⟨rfl, rfl, rfl, rfl, rfl, id, id, rfl⟩
  | journalBlock k o l w0 w1 w2 w3 =>
    cases l <;> simp only [Machine.entryApplied, body]
    · exact ⟨rfl, rfl, rfl, rfl, rfl, id, id, rfl⟩
    · exact ⟨rfl, rfl, rfl, rfl, rfl, id, id, raised (n := .journalRecopied) (by decide) _⟩
  | handover e =>
    simp only [Machine.entryApplied, body]
    split
    · exact ⟨rfl, rfl, rfl, rfl, rfl, nofun, fun _ => rfl, raised (n := .roleChanged) (by decide) _⟩
    · exact ⟨rfl, rfl, rfl, rfl, rfl, id, id, rfl⟩

theorem foldl (l : List SeqFrame) (s : State) : Leads s (l.foldl Machine.entryApplied s) := by
  induction l generalizing s with
  | nil => exact refl s
  | cons f l ih => exact (entryApplied s f).trans (ih _)

theorem headDone (h : Leads s u) (rest : List SeqFrame) : Leads s (headDone s u rest) := by
  have led := h.trans (foldl (rest.takeWhile fun g => immediate g.body) u)
  exact ⟨led.view, led.role, led.sync, led.timing, led.claimIn, led.standby, led.dual, led.notice⟩

/-- A silent peer stays the only cause of a takeover after a loss (R141). -/
theorem loud (h : Leads s v) (hs : peerSilent s = false) : peerSilent v = false := by
  refine Bool.eq_false_iff.mpr fun silent => ?_
  obtain ⟨standby, lost, auto, absent⟩ := peerSilent_iff.mp silent
  rw [h.view] at lost
  rw [h.timing] at auto
  rw [h.claimIn] at absent
  exact nomatch hs.symm.trans (peerSilent_iff.mpr ⟨h.standby standby, lost, auto, absent⟩)

end Leads

/-! ## The rules behind it -/

theorem promote_pends (s : State) : Pends Notice.roleChanged.bit (promote s) := by
  unfold promote
  exact (setRole_pends .active _).clearReplication.decideIfPaired

/-- The step that completes the head of the queue of `s`: it began, for the rules, in `b`, and leaves `w` but for them. -/
structure Completes (c : Instr) (s b z w : State) : Prop where
  exec : exec c s = .next (close s (judgeTakeover b (promoteIfDrained z)))
  view : z.unreported = w.unreported
  leads : Leads s w
  rc : b.rc = s.rc
  link : b.link = s.link
  loud : peerSilent s = false

namespace Completes
variable (h : Completes c s b z w)
include h

theorem field {α : Type} (f : State → α) (hf : ∀ x : State, f x.unreported = f x) : f z = f w :=
  field_of_unreported h.view f hf

theorem same_rc : z.rc = w.rc := h.field State.rc fun _ => rfl
theorem same_link : z.link = w.link := h.field State.link fun _ => rfl
theorem same_apply : z.apply = w.apply := h.field State.apply fun _ => rfl
theorem same_timing : z.csu.timing = w.csu.timing := h.field (·.csu.timing) fun _ => rfl
theorem same_notices : z.csu.pendingSet = w.csu.pendingSet := h.field (·.csu.pendingSet) fun _ => rfl

theorem leads' : Leads s z := by
  refine ⟨?_, ?_, ?_, ?_, ?_, ?_, ?_, ?_⟩
  · rw [h.same_link]; exact h.leads.view
  · rw [h.same_link]; exact h.leads.role
  · rw [h.same_link]; exact h.leads.sync
  · rw [h.same_timing]; exact h.leads.timing
  · rw [h.same_rc]; exact h.leads.claimIn
  · rw [h.same_rc]; exact h.leads.standby
  · rw [h.same_rc]; exact h.leads.dual
  · rw [h.same_notices]; exact h.leads.notice

/-- A part that is STANDBY, or in TAKEOVER with entries left, is not promoted (R144). -/
theorem not_promoted (hw : w.rc.role = .standby ∨ w.rc.role = .takeover ∧ w.apply.queue ≠ []) : promoteIfDrained z = z := by
  refine if_neg fun drained => ?_
  rw [h.same_rc, h.same_apply] at drained
  rcases hw with standby | ⟨-, queue⟩
  · exact nomatch standby.symm.trans drained.1
  · exact queue drained.2

/-- With neither rule's condition the step leaves `w` (R142). -/
theorem stands
    (hw : w.rc.role = .standby ∧ ¬ (s.link.view = .paired ∧ s.link.peer.role ≠ .active ∧ s.link.peer.role ≠ .handoff ∧
        s.link.peer.role ≠ .takeover ∧ w.rc.sync ≠ s.rc.sync) ∨ w.rc.role = .takeover ∧ w.apply.queue ≠ []) :
    ∃ t, Machine.exec c s = .next t ∧ t.unreported = w.unreported := by
  have kept := h.not_promoted (hw.imp_left And.left)
  have unjudged : judgeTakeover b z = z := by
    rcases hw with ⟨standby, quiet⟩ | ⟨takeover, -⟩
    · have led := h.leads'
      have unjudged : noActiveJudged b z = false := by
        refine Bool.eq_false_iff.mpr fun judged => ?_
        simp only [noActiveJudged, Bool.and_eq_true, Bool.or_eq_true, Bool.not_eq_true', decide_eq_true_iff] at judged
        obtain ⟨⟨holds, -⟩, fresh⟩ := judged
        obtain ⟨standby, view, active, handoff, takeover⟩ := noActive_iff.mp holds
        rw [led.view] at view
        rw [led.role] at active handoff takeover
        rw [h.rc, h.link, led.role, led.sync, h.same_rc] at fresh
        rcases fresh with before | role | sync | moved
        · have held : noActive b = true := by
            rw [noActive_iff, h.rc, h.link]
            exact ⟨led.standby standby, view, active, handoff, takeover⟩
          exact nomatch before.symm.trans held
        · exact role rfl
        · exact sync rfl
        · exact quiet ⟨view, active, handoff, takeover, Ne.symm moved⟩
      rw [judgeTakeover, judgeLost_none (led.loud h.loud), judgeNoActive, unjudged]
      rfl
    · exact judgeTakeover_aside _ (by rw [h.same_rc, takeover]; nofun)
  refine ⟨_, h.exec, ?_⟩
  rw [close_unreported, kept, unjudged, h.view]

/-- A change of the sync state beside a peer that claims nothing brings the no-active rule (R142). -/
theorem judged (closing : s.rc.closing = false) (standby : w.rc.role = .standby)
    (hw : s.link.view = .paired ∧ s.link.peer.role ≠ .active ∧ s.link.peer.role ≠ .handoff ∧
      s.link.peer.role ≠ .takeover ∧ w.rc.sync ≠ s.rc.sync) : NoActiveJudged c s w := by
  obtain ⟨view, active, handoff, takeover, sync⟩ := hw
  have led := h.leads'
  have kept := h.not_promoted (.inl standby)
  have holds : noActive z = true :=
    noActive_iff.mpr ⟨by rw [h.same_rc]; exact standby, led.view.trans view, by rw [led.role]; exact ⟨active, handoff, takeover⟩⟩
  have moved : b.link.peer.role ≠ z.link.peer.role ∨ b.link.peer.sync ≠ z.link.peer.sync ∨ b.rc.sync ≠ z.rc.sync := by
    rw [h.rc, h.same_rc]
    exact .inr (.inr sync.symm)
  have early : b.rc.closing = false := by rw [h.rc]; exact closing
  have judged : noActiveJudged b z = true := by
    rw [noActiveJudged, holds, early, decide_eq_true moved, Bool.or_true]
    rfl
  have event : judgeTakeover b (promoteIfDrained z) = judgeNoActive b z := by
    rw [kept, judgeTakeover, judgeLost_none (led.loud h.loud)]
  have exec := h.exec
  rw [event] at exec
  exact (judgeNoActive_judged judged).shown exec (close_unreported _ _) h.same_link h.same_apply
    (h.field State.windows fun _ => rfl) (h.field State.mem fun _ => rfl) h.same_rc led.timing led.notice

/-- A TAKEOVER part with an empty queue is promoted (R116, R144, R145). -/
theorem promoted (takeover : w.rc.role = .takeover) (queue : w.apply.queue = []) :
    ∃ t, Machine.exec c s = .next t ∧
      t.rc = { w.rc with
        role := .active, claimOut := true, dual := dualAfter w.rc.claimIn w.rc.dual
        epoch := maxEpoch w.rc.epoch w.link.peer.epoch + 1 } ∧
      t.link = w.link ∧ t.apply = w.apply ∧ t.mem = w.mem ∧ t.windows = w.windows ∧ t.bpt.held = w.bpt.held ∧
      t.pass.gen = w.pass.gen ∧ t.csu.discard = w.csu.discard ∧ t.csu.running = w.csu.running ∧
      t.csu.result = w.csu.result ∧
      (∀ i, w.csu.pendingSet.getLsbD i = true → t.csu.pendingSet.getLsbD i = true) ∧
      t.csu.pendingSet.getLsbD Notice.roleChanged.bit = true := by
  obtain ⟨r, j, d, p, c', e, gen, -, discard, running, result, -⟩ := promote_eq z
  have event : judgeTakeover b (promoteIfDrained z) = promote z := by
    have drained : promoteIfDrained z = promote z := if_pos ⟨by rw [h.same_rc]; exact takeover, by rw [h.same_apply]; exact queue⟩
    rw [drained]
    exact judgeTakeover_aside _ (by rw [e]; nofun)
  have shows (i : Nat) (hi : w.csu.pendingSet.getLsbD i = true) : (promote z).csu.pendingSet.getLsbD i = true :=
    (Shows.promote (s := z) (i := i) (v := true) ⟨.inl rfl, by rw [h.same_notices]; exact hi⟩).bit
  have exec := h.exec
  rw [event] at exec
  refine ⟨_, exec, ?_⟩
  have changed : (promote z).csu.pendingSet.getLsbD Notice.roleChanged.bit = true := (promote_pends z).bit
  have same_held := h.field (·.bpt.held) fun _ => rfl
  have same_gen := h.field (·.pass.gen) fun _ => rfl
  have same_discard := h.field (·.csu.discard) fun _ => rfl
  have same_running := h.field (·.csu.running) fun _ => rfl
  have same_result := h.field (·.csu.result) fun _ => rfl
  simp only [close_rc, close_link, close_apply, close_mem, close_windows, close_held, close_pass, close_discard,
    close_running, close_result, close_pendingSet]
  refine ⟨?_, ?_, ?_, ?_, ?_, ?_, ?_, ?_, ?_, ?_, shows, changed⟩ <;> rw [e]
  · rw [← h.same_rc, ← h.same_link]
    rfl
  · exact h.same_link
  · exact h.same_apply
  · exact h.field State.mem fun _ => rfl
  · exact h.field State.windows fun _ => rfl
  · exact same_held
  · exact gen.trans same_gen
  · exact discard.trans same_discard
  · exact running.trans same_running
  · exact result.trans same_result

/-- Together, what a statement says of the step. -/
theorem headLeaves (closing : s.rc.closing = false) (applying : s.rc.role = .standby ∨ s.rc.role = .takeover) : HeadLeaves c s w := by
  refine ⟨h.judged closing, h.stands, fun takeover queue claim => ?_⟩
  obtain ⟨t, exec, rc, left⟩ := h.promoted takeover queue
  have idle : (claims s.rc.role && s.rc.claimIn) = false := by rcases applying with x | x <;> rw [x] <;> rfl
  have stopped : w.rc.dual = .stopped := h.leads.dual (claim.2.mpr idle)
  refine ⟨t, exec, ?_, left⟩
  rw [rc, stopped]
  cases w.rc.claimIn <;> rfl

end Completes

end Sys2Proof.Machine
end

section
open Sys2Proof Sys2Proof.Machine
/-! The apply class's slots: what an entry writes, and the write that completes it (R33, R104 to R109). -/

namespace Sys2Proof.Machine

variable {b s t u v w z : State} {f : SeqFrame} {rest : List SeqFrame} {a : Addr} {d : DWord}

/-! ## The words of a RECORD, in their order (R105) -/

theorem range_split {k n : Nat} (h : k < n) :
    List.range n = List.range k ++ k :: (List.range (n - k - 1)).map (k + 1 + ·) := by
  have whole : n = k + (1 + (n - k - 1)) := by omega
  conv_lhs => rw [whole, List.range_add, List.range_add]
  simp [Function.comp_def, Nat.add_assoc]

/-- Every position but K ascending, K last. -/
theorem writeOrder_eq (w : RecordWindow) (h : w.stateWord < w.size) :
    writeOrder w = List.range w.stateWord ++ (List.range (w.size - w.stateWord - 1)).map (w.stateWord + 1 + ·) ++
      [w.stateWord] := by
  have below : (List.range w.stateWord).filter (fun p => decide (p ≠ w.stateWord)) = List.range w.stateWord :=
    List.filter_eq_self.mpr fun p hp => decide_eq_true (Nat.ne_of_lt (List.mem_range.mp hp))
  have above : ((List.range (w.size - w.stateWord - 1)).map (w.stateWord + 1 + ·)).filter
      (fun p => decide (p ≠ w.stateWord)) = (List.range (w.size - w.stateWord - 1)).map (w.stateWord + 1 + ·) := by
    refine List.filter_eq_self.mpr fun p hp => decide_eq_true ?_
    obtain ⟨i, -, rfl⟩ := List.mem_map.mp hp
    omega
  rw [writeOrder, range_split h, List.filter_append, List.filter_cons_of_neg (by simp), below, above]

theorem writeOrder_length (w : RecordWindow) (h : w.stateWord < w.size) : (writeOrder w).length = w.size := by
  rw [writeOrder_eq w h]
  simp
  omega

theorem writeOrder_at (w : RecordWindow) (h : w.stateWord < w.size) {n : Nat} (hn : n < w.size) :
    (writeOrder w)[n]? =
      some (if n + 1 = w.size then w.stateWord else if n < w.stateWord then n else n + 1) := by
  rw [writeOrder_eq w h]
  grind

/-! ## The slot -/

/-- The state in which a slot of the apply class is served. -/
def applyGranted (s : State) : State :=
  s.onBpt fun b => { b with waitCount := 0, offers := b.offers.filter fun o => decide (o.cls ≠ .apply) }

theorem nextClass_apply (free : ∀ x, s.bpt.held ≠ .port x) (queue : s.apply.queue = f :: rest)
    (next : ((nextWrite s).isSome || (nextMergeRead s).isSome) = true) : nextClass s = some .apply := by
  have ready : upstreamReady s = false := by
    unfold upstreamReady
    split
    · next x held => exact absurd held (free x)
    · rfl
  have offers : currentOffers s = .apply f.seq s.apply.written s.apply.merged.isSome :: (currentOffers s).tail := by
    rw [currentOffers, if_pos next, queue]
    rfl
  rw [nextClass, ready, offers]
  rfl

theorem writeSlot_eq (runs : s.rc.bclkQuiet = none) (free : ∀ x, s.bpt.held ≠ .port x)
    (queue : s.apply.queue = f :: rest) (merge : nextMergeRead s = none) (next : nextWrite s = some (a, d)) :
    writeSlot s = applyWrite (applyGranted s) := by
  have slot : nextClass s = some .apply := nextClass_apply free queue (by rw [next]; rfl)
  have merge' : nextMergeRead (applyGranted s) = none := merge
  have served : grantPart .apply s = applyWrite (applyGranted s) :=
    if_neg (c := (nextMergeRead (applyGranted s)).isSome = true) (by rw [merge']; decide)
  rw [writeSlot, merge, portSlot_running runs slot, served]
  rfl

theorem applyWrite_part (queue : s.apply.queue = f :: rest) (next : nextWrite s = some (a, d))
    (part : ¬ (entryWrites s.windows s.apply.merged f.body).length ≤ s.apply.written + 1) :
    applyWrite s =
      (s.onMem fun m => memWrite m a (codedWord d)).onApply fun x => { x with written := x.written + 1 } := by
  unfold applyWrite
  rw [next, queue]
  exact if_neg part

theorem applyWrite_last (queue : s.apply.queue = f :: rest) (next : nextWrite s = some (a, d))
    (last : (entryWrites s.windows s.apply.merged f.body).length ≤ s.apply.written + 1) :
    applyWrite s = judgeTakeover s (settleQueue (completeHead f rest
      ((s.onMem fun m => memWrite m a (codedWord d)).onApply fun x => { x with written := x.written + 1 }))) := by
  unfold applyWrite
  rw [next, queue]
  exact if_pos last

/-! ## The write that completes the head -/

/-- The state with the word written with generated check bits (R33). -/
def State.wrote (a : Addr) (d : DWord) (s : State) : State := { s with mem := memWrite s.mem a ⟨d, checkBits d⟩ }

theorem foldl_entryApplied_unreported (l : List SeqFrame) (s : State) :
    (l.foldl entryApplied s).unreported = l.foldl entryApplied s.unreported := by
  induction l generalizing s with
  | nil => rfl
  | cons f l ih => rw [List.foldl_cons, List.foldl_cons, ih, entryApplied_unreported]

/-- The completion looks at its state in the view of a statement alone. -/
theorem headDone_unreported (s u : State) (rest : List SeqFrame) :
    (headDone s u rest).unreported = settledQueue s
      ((rest.takeWhile fun g => immediate g.body).foldl entryApplied u.unreported)
      (rest.dropWhile fun g => immediate g.body) := by
  rw [headDone_eq, settledQueue_unreported, foldl_entryApplied_unreported]
  rfl

theorem completes_write (runs : s.rc.bclkQuiet = none) (free : ∀ x, s.bpt.held ≠ .port x)
    (applying : applies s.rc.role = true) (loud : peerSilent s = false) (queue : s.apply.queue = f :: rest)
    (merge : nextMergeRead s = none) (next : nextWrite s = some (a, d))
    (last : (entryWrites s.windows s.apply.merged f.body).length ≤ s.apply.written + 1) :
    ∃ z, Completes .applyWordWrite s (applyGranted s) z (headDone s (entryApplied (s.wrote a d) f) rest) := by
  have event := applyWrite_last (s := applyGranted s) queue next last
  have first : (completeHead f rest (((applyGranted s).onMem fun m => memWrite m a (codedWord d)).onApply fun x =>
      { x with written := x.written + 1 })).unreported =
      (settledQueue ((applyGranted s).wrote a d) (entryApplied ((applyGranted s).wrote a d) f) rest).unreported :=
    completeHead_unreported f rest _ ((applyGranted s).wrote a d)
  have behind (x : SeqFrame) (hx : x ∈ rest) : x ∈ ((applyGranted s).wrote a d).apply.queue := by
    show x ∈ s.apply.queue
    rw [queue]
    exact List.mem_cons_of_mem f hx
  have view := completeImmediate_unreported rest behind (entryApplied_windows ((applyGranted s).wrote a d) f) first
  have led := Leads.entryApplied (s.wrote a d) f
  have leads : Leads s (entryApplied (s.wrote a d) f) :=
    ⟨led.view, led.role, led.sync, led.timing, led.claimIn, led.standby, led.dual, led.notice⟩
  have applies' := (completeHead_applies (((applyGranted s).onMem fun m => memWrite m a (codedWord d)).onApply fun x =>
      { x with written := x.written + 1 }) f rest).trans applying
  refine ⟨_, ?_, view.trans ?_, leads.headDone rest, rfl, rfl, loud⟩
  · show Host.Outcome.next (close s (writeSlot s)) = _
    rw [writeSlot_eq runs free queue merge next, event, settleQueue, applies', completeHead_queue]
    rfl
  · rw [headDone_unreported, headDone_unreported, entryApplied_unreported, entryApplied_unreported]
    rfl

/-- A write that does not complete its entry (R104). -/
theorem part_write (runs : s.rc.bclkQuiet = none) (free : ∀ x, s.bpt.held ≠ .port x)
    (queue : s.apply.queue = f :: rest) (merge : nextMergeRead s = none) (next : nextWrite s = some (a, d))
    (part : ¬ (entryWrites s.windows s.apply.merged f.body).length ≤ s.apply.written + 1) :
    ∃ t, exec .applyWordWrite s = .next t ∧
      t.unreported = ({ s with
        mem := memWrite s.mem a ⟨d, checkBits d⟩
        apply := { s.apply with written := s.apply.written + 1 } } : State).unreported := by
  refine ⟨_, rfl, ?_⟩
  rw [close_unreported, writeSlot_eq runs free queue merge next, applyWrite_part (s := applyGranted s) queue next part]
  rfl

end Sys2Proof.Machine
end

section
open Sys2Proof Sys2Proof.Machine
/-! APPLY_WORD_WRITE: the entries that write memory, and their completion (R105 to R109). -/

namespace Sys2Proof.Machine

variable {b s t u v w : State} {f : SeqFrame} {rest : List SeqFrame} {a : Addr} {d : DWord}

/-! ## What a memory entry's completion reaches -/

/-- The effect of an entry that writes memory: A, the ACK, the journal counts and the reports (R106 to R111). -/
theorem entryApplied_memory (s : State) (hf : immediate f.body = false) :
    ∃ n c, entryApplied s f =
        { s with
          link := { s.link with
            ackWaiting := s.link.ackWaiting || decide (s.link.state = .up ∧ f.seq + 1 ≠ s.apply.lastAck) }
          apply := { s.apply with applied := f.seq + 1, counts := n }
          csu := c } ∧
      (∀ k o m x, f.body = .journalWord k o m x → n = s.apply.counts.set k (s.apply.counts[k] + 1) ∧
        c = if m ≠ 0 ∧ m ≠ 0xFF ∧ s.apply.merged.map Prod.snd = some .uncorrectable then
            { s.csu with
              discard := ⟨.journalWord, k, o.toNat⟩
              pendingSet := s.csu.pendingSet ||| Notice.recordDiscarded.mask }
          else s.csu) ∧
      ((∀ k o m x, f.body ≠ .journalWord k o m x) → n = s.apply.counts) ∧
      (∀ k i, f.body = .discard k i → c.discard = ⟨.record, k, i.toNat⟩ ∧
        c.pendingSet = s.csu.pendingSet ||| Notice.recordDiscarded.mask) ∧
      (∀ k o w0 w1 w2 w3, f.body = .journalBlock k o true w0 w1 w2 w3 →
        c.pendingSet = s.csu.pendingSet ||| Notice.journalRecopied.mask) := by
  refine ⟨(entryApplied s f).apply.counts, (entryApplied s f).csu, ?_⟩
  cases body : f.body with
  | record | tombstone =>
    rw [entryApplied, body]
    exact ⟨rfl, nofun, fun _ => rfl, nofun, nofun⟩
  | discard k i =>
    rw [entryApplied, body]
    refine ⟨rfl, nofun, fun _ => rfl, ?_, nofun⟩
    rintro k' i' ⟨⟩
    exact ⟨rfl, rfl⟩
  | journalWord k o m x =>
    rw [entryApplied, body]
    refine ⟨rfl, ?_, fun other => absurd rfl (other k o m x), nofun, nofun⟩
    rintro k' o' m' x' ⟨⟩
    exact ⟨rfl, rfl⟩
  | journalBlock k o l w0 w1 w2 w3 =>
    rw [entryApplied, body]
    cases l with
    | true =>
      refine ⟨rfl, nofun, fun _ => rfl, nofun, ?_⟩
      rintro k' o' w0' w1' w2' w3' ⟨⟩
      rfl
    | false => exact ⟨rfl, nofun, fun _ => rfl, nofun, nofun⟩
  | syncBegin | syncDone | handover =>
    rw [body] at hf
    cases hf

/-- With no entry behind the head that completes with it, only the head leaves (R104). -/
theorem headDone_plain (s u : State) (hr : ∀ g l, rest = g :: l → immediate g.body = false) :
    headDone s u rest = settledQueue s u rest := by
  rw [headDone_eq]
  cases rest with
  | nil => rfl
  | cons g l =>
    have hg := hr g l rfl
    rw [List.takeWhile_cons, List.dropWhile_cons, hg]
    rfl

/-- What a statement says of a held read at the completion (R29). -/
theorem released_of_heldAfter (ht : t.bpt.held = heldAfter s rest) (x : Addr) (held : s.bpt.held = .read x) :
    (covered s x = true → (rest.any fun g => coversAddr s.windows x.toNat g.body) = false →
        t.bpt.held = .port ⟨false, x, 0, 0, 0⟩) ∧
      ((rest.any fun g => coversAddr s.windows x.toNat g.body) = true → t.bpt.held = .read x) := by
  rw [ht, heldAfter_read held]
  refine ⟨fun cover none_later => ?_, fun later => ?_⟩
  · rw [cover, none_later]
    rfl
  · rw [later, Bool.not_true, Bool.and_false]
    rfl

/-! ## The write each kind offers -/

/-- The head offers the write of `d` at `a`, its last exactly when `last` says so. -/
structure Writes (s : State) (f : SeqFrame) (a : Addr) (d : DWord) (last : Bool) : Prop where
  next   : nextWrite s = some (a, d)
  merge  : nextMergeRead s = none
  ends   : last = true ↔ (entryWrites s.windows s.apply.merged f.body).length ≤ s.apply.written + 1
  memory : immediate f.body = false

theorem writes_of {last : Bool} (applying : applies s.rc.role = true) (queue : s.apply.queue = f :: rest)
    (hm : mergeReadAddr s.windows s.apply.merged f.body = none)
    (next : (entryWrites s.windows s.apply.merged f.body)[s.apply.written]? = some (a, d))
    (ends : last = true ↔ (entryWrites s.windows s.apply.merged f.body).length ≤ s.apply.written + 1)
    (memory : immediate f.body = false) : Writes s f a d last := by
  refine ⟨?_, ?_, ends, memory⟩
  · rw [nextWrite, if_pos applying, queue]
    exact next
  · rw [nextMergeRead, if_pos applying, queue]
    exact hm

variable {n : Nat} {last : Bool}

theorem record_writes (applying : applies s.rc.role = true) (queue : s.apply.queue = f :: rest) {k : Slot} {i : BitVec 16}
    {ws : List DWord} {x : RecordWindow} (body : f.body = .record k i ws) (slot : recordAt s.windows k = some x)
    (hk : x.stateWord < x.size) (hn : s.apply.written < x.size)
    (ha : a = BitVec.ofNat 19 (x.base + i.toNat * x.size +
      (if s.apply.written + 1 = x.size then x.stateWord
       else if s.apply.written < x.stateWord then s.apply.written else s.apply.written + 1)))
    (hd : d = ws.getD (if s.apply.written + 1 = x.size then x.stateWord
       else if s.apply.written < x.stateWord then s.apply.written else s.apply.written + 1) 0)
    (hl : last = decide (s.apply.written + 1 = x.size)) : Writes s f a d last := by
  have words : entryWrites s.windows s.apply.merged f.body =
      (writeOrder x).map fun p => (x.wordAddr i.toNat p, ws.getD p 0) := by
    rw [body, entryWrites, slot]
  refine writes_of applying queue (by rw [body]; rfl) ?_ ?_ (by rw [body]; rfl)
  · rw [words, List.getElem?_map, writeOrder_at x hk hn, ha, hd]
    rfl
  · rw [words, List.length_map, writeOrder_length x hk, hl, decide_eq_true_iff]
    omega

theorem clear_writes (applying : applies s.rc.role = true) (queue : s.apply.queue = f :: rest) {k : Slot} {i : BitVec 16}
    {x : RecordWindow} (body : f.body = .tombstone k i ∨ f.body = .discard k i) (slot : recordAt s.windows k = some x)
    (hn : s.apply.written = 0) (ha : a = BitVec.ofNat 19 (x.base + i.toNat * x.size + x.stateWord)) (hd : d = 0)
    (hl : last = true) : Writes s f a d last := by
  have words : entryWrites s.windows s.apply.merged f.body = [(x.wordAddr i.toNat x.stateWord, 0)] := by
    rcases body with body | body <;> rw [body, entryWrites, slot]
  refine writes_of applying queue (by rcases body with body | body <;> rw [body] <;> rfl) ?_ ?_
    (by rcases body with body | body <;> rw [body] <;> rfl)
  · rw [words, hn, ha, hd]
    rfl
  · rw [words, hn, hl]
    exact iff_of_true rfl le_rfl

theorem word_writes (applying : applies s.rc.role = true) (queue : s.apply.queue = f :: rest) {k : Slot} {o : BitVec 16}
    {x : JournalWindow} (body : f.body = .journalWord k o 0xFF d) (slot : journalAt s.windows k = some x)
    (hn : s.apply.written = 0) (ha : a = BitVec.ofNat 19 (x.base + o.toNat)) (hl : last = true) : Writes s f a d last := by
  have words : entryWrites s.windows s.apply.merged f.body = [(x.wordAddr o.toNat, d)] := by
    rw [body, entryWrites, slot]
    rfl
  refine writes_of applying queue (by rw [body, mergeReadAddr]; exact if_neg fun h => h.2.1 rfl) ?_ ?_ (by rw [body]; rfl)
  · rw [words, hn, ha]
    rfl
  · rw [words, hn, hl]
    exact iff_of_true rfl le_rfl

theorem block_writes (applying : applies s.rc.role = true) (queue : s.apply.queue = f :: rest) {k : Slot} {o : BitVec 16}
    {l : Bool} {w0 w1 w2 w3 : DWord} {x : JournalWindow} (body : f.body = .journalBlock k o l w0 w1 w2 w3)
    (slot : journalAt s.windows k = some x) (hn : s.apply.written < 4)
    (ha : a = BitVec.ofNat 19 (x.base + (o.toNat + s.apply.written)))
    (hd : d = [w0, w1, w2, w3].getD s.apply.written 0) (hl : last = decide (s.apply.written = 3)) : Writes s f a d last := by
  have words : entryWrites s.windows s.apply.merged f.body = blockWrites x o.toNat w0 w1 w2 w3 := by
    rw [body, entryWrites, slot]
  refine writes_of applying queue (by rw [body]; rfl) ?_ ?_ (by rw [body]; rfl)
  · rw [words, ha, hd]
    generalize s.apply.written = m at hn
    match m, hn with
    | 0, _ => rfl
    | 1, _ => rfl
    | 2, _ => rfl
    | 3, _ => rfl
  · rw [words, hl, decide_eq_true_iff]
    show _ ↔ 4 ≤ _
    omega

end Sys2Proof.Machine

/-- Settles O44: what each kind offers to write, then the step of the completing write. -/
theorem applyWrites : Obligations.ApplyWrites := by
  intro s f rest a d last role runs loud free queue n later released kinds
  have applying : applies s.rc.role = true := by rcases role with x | x <;> rw [x] <;> rfl
  have writes : Writes s f a d last := by
    rcases kinds with ⟨k, i, ws, w, body, slot, hk, hn, ha, hd, hl⟩ | ⟨k, i, w, body, slot, hn, ha, hd, hl⟩ |
      ⟨k, o, w, body, slot, hn, ha, hl⟩ | ⟨k, o, l, w0, w1, w2, w3, w, body, slot, hn, ha, hd, hl⟩
    · exact record_writes applying queue body slot hk hn ha hd hl
    · exact clear_writes applying queue body slot hn ha hd hl
    · exact word_writes applying queue body slot hn ha hl
    · exact block_writes applying queue body slot hn ha hd hl
  obtain ⟨next, merge, ends, memory⟩ := writes
  obtain ⟨counts, c, effect, word, other, discard, block⟩ := entryApplied_memory (s.wrote a d) memory
  have completes (hl : last = true) := completes_write runs free applying loud queue merge next (ends.mp hl)
  refine ⟨fun part => ?_, fun done standby plain => ?_, fun done takeover empty => ?_, fun done takeover more plain => ?_,
    fun done closing => ?_⟩
  · exact part_write runs free queue merge next fun full => nomatch part.symm.trans (ends.mpr full)
  · obtain ⟨z, h⟩ := completes done
    rw [headDone_plain s _ plain, effect] at h
    obtain ⟨t, exec, view⟩ := h.stands (.inl ⟨standby, fun judged => judged.2.2.2.2 rfl⟩)
    have apply := field_of_unreported view State.apply fun _ => rfl
    have csu := field_of_unreported view (fun x => (x.csu.discard, x.csu.pendingSet)) fun _ => rfl
    refine ⟨t, exec, field_of_unreported view State.mem fun _ => rfl, ?_, ?_, ?_, ?_, ?_,
      field_of_unreported view (·.link.ackWaiting) fun _ => rfl, field_of_unreported view State.rc fun _ => rfl,
      field_of_unreported view State.rts fun _ => rfl, field_of_unreported view State.disp fun _ => rfl,
      field_of_unreported view State.journals fun _ => rfl, field_of_unreported view State.pass fun _ => rfl,
      fun x hx => released_of_heldAfter (field_of_unreported view (·.bpt.held) fun _ => rfl) x hx, ?_, ?_, ?_, ?_⟩
    iterate 5 rw [apply]; rfl
    · intro k o m x body
      rw [apply]
      exact (word k o m x body).1
    · intro no_word
      rw [apply]
      exact other no_word
    · intro k i body
      obtain ⟨marker, notice⟩ := discard k i body
      exact ⟨(congrArg Prod.fst csu).trans marker, (congrArg Prod.snd csu).trans notice⟩
    · intro k o w0 w1 w2 w3 body
      exact (congrArg Prod.snd csu).trans (block k o w0 w1 w2 w3 body)
  · obtain ⟨z, h⟩ := completes done
    subst empty
    rw [headDone_plain (rest := []) s _ (fun _ _ cons => nomatch cons), effect] at h
    obtain ⟨t, exec, rc, link, apply, mem, windows, held, -⟩ := h.promoted takeover rfl
    refine ⟨t, exec, mem, fun x hx => released_of_heldAfter held x hx, ?_, ?_⟩
    · rw [rc]
    · rw [rc]
      rfl
  · obtain ⟨z, h⟩ := completes done
    rw [headDone_plain s _ plain, effect] at h
    obtain ⟨t, exec, view⟩ := h.stands (.inr ⟨takeover, more⟩)
    have apply := field_of_unreported view State.apply fun _ => rfl
    refine ⟨t, exec, field_of_unreported view State.mem fun _ => rfl,
      fun x hx => released_of_heldAfter (field_of_unreported view (·.bpt.held) fun _ => rfl) x hx, ?_, ?_, ?_, ?_,
      field_of_unreported view State.rc fun _ => rfl⟩
    all_goals rw [apply]; rfl
  · obtain ⟨z, h⟩ := completes done
    exact h.headLeaves closing role
end

section
open Sys2Proof Sys2Proof.Machine
/-! APPLY_MERGE_READ and the write of a partial journal word (R34, R62, R107). -/

namespace Sys2Proof.Machine

variable {s : State} {rest : List SeqFrame} {q : SeqNo} {k : Slot} {o : BitVec 16} {m : Byte} {d : DWord}
  {w : JournalWindow}

/-- A partial word that has made no read offers one (R107). -/
theorem nextMergeRead_partial (applying : applies s.rc.role = true)
    (queue : s.apply.queue = ⟨q, .journalWord k o m d⟩ :: rest) (hm : m ≠ 0) (hf : m ≠ 0xFF)
    (slot : journalAt s.windows k = some w) (unread : s.apply.merged = none) :
    nextMergeRead s = some (w.wordAddr o.toNat) := by
  rw [nextMergeRead, if_pos applying, queue]
  show mergeReadAddr s.windows s.apply.merged (.journalWord k o m d) = _
  rw [mergeReadAddr, if_pos ⟨hm, hf, unread⟩, slot]
  rfl

/-- The merge read: the word classified and counted, and the frame's bytes put over it (R34, R62, R107). -/
theorem applyRead_eq {a : Addr} (queue : s.apply.queue = ⟨q, .journalWord k o m d⟩ :: rest)
    (next : nextMergeRead s = some a) :
    applyRead s =
      (countCorrected (classify (memRead s.mem a)).1 s).onApply fun x =>
        { x with merged := some (mergeBytes (classify (memRead s.mem a)).2 d m, (classify (memRead s.mem a)).1) } := by
  unfold applyRead
  rw [next, queue]

theorem mergeSlot_eq {f : SeqFrame} {a : Addr} (runs : s.rc.bclkQuiet = none) (free : ∀ x, s.bpt.held ≠ .port x)
    (queue : s.apply.queue = f :: rest) (next : nextMergeRead s = some a) : mergeSlot s = applyRead (applyGranted s) := by
  have slot : nextClass s = some .apply := nextClass_apply free queue (by rw [next, Option.isSome_some, Bool.or_true])
  have next' : nextMergeRead (applyGranted s) = some a := next
  have served : grantPart .apply s = applyRead (applyGranted s) :=
    if_pos (c := (nextMergeRead (applyGranted s)).isSome = true) (by rw [next']; rfl)
  rw [mergeSlot, next, portSlot_running runs slot, served]
  rfl

theorem countCorrected_eq (c : ReadClass) (s : State) :
    countCorrected c s = s.onDisp fun d =>
      { d with corrected := if c = .corrected then saturatingInc d.corrected else d.corrected } := by
  unfold countCorrected
  split <;> rfl

/-- A partial word that has made its read offers the merged word, its one write (R107). -/
theorem partial_writes {x : DWord} {c : ReadClass} (applying : applies s.rc.role = true)
    (queue : s.apply.queue = ⟨q, .journalWord k o m d⟩ :: rest) (hm : m ≠ 0) (hf : m ≠ 0xFF)
    (slot : journalAt s.windows k = some w) (read : s.apply.merged = some (x, c)) (hn : s.apply.written = 0) :
    Writes s ⟨q, .journalWord k o m d⟩ (w.wordAddr o.toNat) x true := by
  have words : entryWrites s.windows s.apply.merged (.journalWord k o m d) = [(w.wordAddr o.toNat, x)] := by
    rw [entryWrites, slot, read]
    simp only [hm, hf, if_false]
  refine writes_of applying queue ?_ ?_ ?_ (decide_eq_false hm)
  · rw [mergeReadAddr, read]
    exact if_neg fun unread => nomatch unread.2.2
  · rw [words, hn]
    rfl
  · rw [words, hn]
    exact iff_of_true rfl le_rfl

end Sys2Proof.Machine

/-- Settles O45: the read, then the write of the merged word as a completing write. -/
theorem mergeThenWrite : Obligations.MergeThenWrite := by
  intro s q k o m d rest w role runs free queue hm hf slot a c old
  have applying : applies s.rc.role = true := by rcases role with x | x <;> rw [x] <;> rfl
  have completes (x : DWord) (c' : ReadClass) (read : s.apply.merged = some (x, c')) (hn : s.apply.written = 0)
      (loud : peerSilent s = false) := by
    obtain ⟨next, merge, ends, memory⟩ := partial_writes applying queue hm hf slot read hn
    exact completes_write runs free applying loud queue merge next (ends.mp rfl)
  refine ⟨fun unread => ?_, fun x c' read hn standby loud plain => ?_, fun x c' read hn loud closing => ?_⟩
  · have next := nextMergeRead_partial applying queue hm hf slot unread
    refine ⟨_, rfl, ?_⟩
    rw [close_unreported, mergeSlot_eq runs free queue next, applyRead_eq (s := applyGranted s) queue next,
      countCorrected_eq]
    rfl
  · obtain ⟨z, h⟩ := completes x c' read hn loud
    obtain ⟨counts, csu, effect, word, -⟩ :=
      entryApplied_memory (f := ⟨q, .journalWord k o m d⟩) (s.wrote (w.wordAddr o.toNat) x) (decide_eq_false hm)
    obtain ⟨counted, reported⟩ := word k o m d rfl
    rw [headDone_plain s _ plain, effect] at h
    obtain ⟨t, exec, view⟩ := h.stands (.inl ⟨standby, fun judged => judged.2.2.2.2 rfl⟩)
    have apply := field_of_unreported view State.apply fun _ => rfl
    have notes := field_of_unreported view (fun x => (x.csu.discard, x.csu.pendingSet)) fun _ => rfl
    have marker : t.csu.discard = csu.discard := congrArg Prod.fst notes
    have notices : t.csu.pendingSet = csu.pendingSet := congrArg Prod.snd notes
    have merged : (s.wrote (w.wordAddr o.toNat) x).apply.merged.map Prod.snd = some c' := congrArg (Option.map Prod.snd) read
    rw [merged] at reported
    refine ⟨t, exec, field_of_unreported view State.mem fun _ => rfl, by rw [apply]; rfl, by rw [apply]; rfl,
      by rw [apply]; exact counted, field_of_unreported view State.rc fun _ => rfl, fun lost => ?_, fun sound => ?_⟩
    · rw [if_pos ⟨hm, hf, congrArg some lost⟩] at reported
      rw [marker, notices, reported]
      exact ⟨rfl, rfl⟩
    · rw [if_neg fun lost => sound (Option.some.inj lost.2.2)] at reported
      rw [marker, notices, reported]
      exact ⟨rfl, rfl⟩
  · obtain ⟨z, h⟩ := completes x c' read hn loud
    exact h.headLeaves closing role
end

section
open Sys2Proof Sys2Proof.Machine
/-! What the close of a step leaves of the words that are pending and of the part requests that are offered, and the grant
of a slot to an upstream access (R30, R31, R166). -/

namespace Sys2Proof.Machine

variable {b s t d : State}

/-! ## The offers, class by class (R30) -/

/-- The words pending, in the order of the posting queue (R166). -/
def postedWords (s : State) : List Nat := s.csu.postQueue.map (·.word)

/-- The request of the apply class. -/
def applyOffer (s : State) : List Offer :=
  if (nextWrite s).isSome || (nextMergeRead s).isSome then
    (s.apply.queue.head?.map fun f => Offer.apply f.seq s.apply.written s.apply.merged.isSome).toList
  else []

/-- The request of the readout class. -/
def readoutOffer (d : Dispatcher) : List Offer :=
  ((readingEntry d).bind fun e =>
    (readoutOf d e).map fun r => Offer.readout e.seq r.restarts r.words.length).toList

/-- The request of the status class. -/
def statusOffer (s : State) : List Offer := ((postedWords s).head?.map Offer.status).toList

theorem currentOffers_eq (s : State) : currentOffers s = applyOffer s ++ readoutOffer s.disp ++ statusOffer s := by
  unfold currentOffers applyOffer readoutOffer statusOffer postedWords
  congr 2
  · cases s.apply.queue <;> rfl
  · cases readingEntry s.disp with
    | none => rfl
    | some e => cases h : readoutOf s.disp e <;> simp [h]
  · cases s.csu.postQueue <;> rfl

theorem applyOffer_congr (windows : t.windows = s.windows) (role : t.rc.role = s.rc.role) (apply : t.apply = s.apply) :
    applyOffer t = applyOffer s := by
  unfold applyOffer nextWrite nextMergeRead
  rw [windows, role, apply]

theorem statusOffer_congr (words : postedWords t = postedWords s) : statusOffer t = statusOffer s := by
  rw [statusOffer, words]
  rfl

theorem currentOffers_congr (windows : t.windows = s.windows) (role : t.rc.role = s.rc.role)
    (apply : t.apply = s.apply) (disp : t.disp = s.disp) (words : postedWords t = postedWords s) :
    currentOffers t = currentOffers s := by
  rw [currentOffers_eq, currentOffers_eq, applyOffer_congr windows role apply, disp, statusOffer_congr words]

theorem cls_of_applyOffer {o : Offer} (h : o ∈ applyOffer s) : o.cls = .apply := by
  unfold applyOffer at h
  split at h
  · obtain ⟨f, -, rfl⟩ := Option.map_eq_some_iff.mp (Option.mem_toList.mp h)
    rfl
  · cases h

theorem cls_of_readoutOffer {o : Offer} {d : Dispatcher} (h : o ∈ readoutOffer d) : o.cls = .readout := by
  obtain ⟨e, -, he⟩ := Option.bind_eq_some_iff.mp (Option.mem_toList.mp h)
  obtain ⟨r, -, rfl⟩ := Option.map_eq_some_iff.mp he
  rfl

theorem cls_of_statusOffer {o : Offer} (h : o ∈ statusOffer s) : o.cls = .status := by
  obtain ⟨f, -, rfl⟩ := Option.map_eq_some_iff.mp (Option.mem_toList.mp h)
  rfl

/-- The offers of one class. -/
def classOffer (c : PortClass) (s : State) : List Offer :=
  match c with
  | .apply => applyOffer s
  | .readout => readoutOffer s.disp
  | .status => statusOffer s

theorem mem_currentOffers {o : Offer} : o ∈ currentOffers s ↔ o ∈ classOffer o.cls s := by
  rw [currentOffers_eq, List.mem_append, List.mem_append]
  constructor
  · rintro ((h | h) | h)
    · rw [cls_of_applyOffer h]; exact h
    · rw [cls_of_readoutOffer h]; exact h
    · rw [cls_of_statusOffer h]; exact h
  · intro h
    cases hc : o.cls <;> rw [hc] at h
    · exact .inl (.inl h)
    · exact .inl (.inr h)
    · exact .inr h

theorem cls_of_classOffer {c : PortClass} {o : Offer} (h : o ∈ classOffer c s) : o.cls = c := by
  cases c
  · exact cls_of_applyOffer h
  · exact cls_of_readoutOffer h
  · exact cls_of_statusOffer h

/-- Where one class alone offers the others offer nothing. -/
theorem classOffer_nil {c k : PortClass} (only : ∀ o ∈ currentOffers s, o.cls = c) (other : k ≠ c) :
    classOffer k s = [] := by
  refine List.eq_nil_iff_forall_not_mem.mpr fun o ho => other ?_
  have cls := cls_of_classOffer ho
  rw [← only o (mem_currentOffers.mpr (cls.symm ▸ ho)), cls]

/-- A class offers at most one request. -/
theorem classOffer_unique {c : PortClass} {o o' : Offer} (h : o ∈ classOffer c s) (h' : o' ∈ classOffer c s) :
    o = o' := by
  have listed {x : Option Offer} (ho : o ∈ x.toList) (ho' : o' ∈ x.toList) : o = o' :=
    Option.mem_unique (Option.mem_toList.mp ho) (Option.mem_toList.mp ho')
  cases c with
  | apply =>
    by_cases next : ((nextWrite s).isSome || (nextMergeRead s).isSome) = true
    · simp only [classOffer, applyOffer, if_pos next] at h h'
      exact listed h h'
    · simp only [classOffer, applyOffer, if_neg next] at h
      cases h
  | readout => exact listed h h'
  | status => exact listed h h'

/-! ## The words pending after a close (R166) -/

theorem pendingValue_some {w : Nat} {v : DWord} (h : pendingValue w s.csu.postQueue = some v) : w ∈ postedWords s := by
  obtain ⟨p, hp, -⟩ := Option.map_eq_some_iff.mp h
  have word : p.word = w := by simpa using List.find?_some hp
  exact List.mem_map.mpr ⟨p, List.mem_of_find?_eq_some hp, word⟩

theorem postedWords_post (w : Nat) (v : DWord) (s : State) :
    postedWords (post w v s) = if w ∈ postedWords s then postedWords s else postedWords s ++ [w] :=
  postInto_words w v s.csu.postQueue

theorem postedWords_post_prefix (w : Nat) (v : DWord) (s : State) : postedWords s <+: postedWords (post w v s) := by
  rw [postedWords_post]
  split
  · exact List.prefix_refl _
  · exact List.prefix_append ..

theorem mem_postedWords_post (w : Nat) (v : DWord) (s : State) : w ∈ postedWords (post w v s) := by
  rw [postedWords_post]
  split
  · assumption
  · simp

/-- Each of the words `ws` has the value it has in `b`, or is pending. -/
def Announced (b s : State) (ws : List Nat) : Prop :=
  ∀ w ∈ ws, statusWord s w = statusWord b w ∨ w ∈ postedWords s

theorem mem_posted_of_moved {w : Nat} (h : statusWord s w = statusWord b w ∨ w ∈ postedWords s)
    (moved : ¬ postingStands b s w = true) : w ∈ postedWords s := by
  rcases h with same | posted
  · cases pending : pendingValue w s.csu.postQueue with
    | none => exact absurd (by simp [postingStands, same, pending]) moved
    | some v => exact pendingValue_some pending
  · exact posted

theorem postedWords_postChanged_prefix (b : State) (ws : List Nat) (s : State) :
    postedWords s <+: postedWords (postChanged b ws s) := by
  induction ws generalizing s with
  | nil => exact List.prefix_refl _
  | cons w ws ih =>
    unfold postChanged
    split
    · exact ih s
    · exact (postedWords_post_prefix ..).trans (ih _)

theorem postedWords_postChanged {ws : List Nat} (h : Announced b s ws) :
    postedWords (postChanged b ws s) = postedWords s := by
  induction ws generalizing s with
  | nil => rfl
  | cons w ws ih =>
    unfold postChanged
    split
    · exact ih fun x hx => h x (List.mem_cons_of_mem w hx)
    · next moved =>
      have words (v : DWord) : postedWords (post w v s) = postedWords s := by
        rw [postedWords_post, if_pos (mem_posted_of_moved (h w List.mem_cons_self) moved)]
      rw [ih fun x hx => ?_, words]
      rw [words]
      exact h x (List.mem_cons_of_mem w hx)

theorem announced_postChanged (b : State) (ws : List Nat) (s : State) : Announced b (postChanged b ws s) ws := by
  induction ws generalizing s with
  | nil => nofun
  | cons w ws ih =>
    have status (u : State) : statusWord (postChanged b ws u) w = statusWord u w := by
      obtain ⟨q, h⟩ := postChanged_spec b ws u
      rw [h]
      rfl
    have words (u : State) (hu : w ∈ postedWords u) : w ∈ postedWords (postChanged b ws u) :=
      (postedWords_postChanged_prefix b ws u).subset hu
    unfold postChanged
    rintro x hx
    rcases List.mem_cons.mp hx with rfl | hx
    · split
      · next stands =>
        simp only [postingStands, Bool.and_eq_true, decide_eq_true_eq] at stands
        exact .inl ((status s).trans stands.1)
      · exact .inr (words _ (mem_postedWords_post ..))
    · exact ih _ x hx

theorem postedWords_close_prefix (b s : State) : postedWords s <+: postedWords (close b s) :=
  postedWords_postChanged_prefix b stateWords (driveInt s)

theorem postedWords_close (h : Announced b s stateWords) : postedWords (close b s) = postedWords s :=
  postedWords_postChanged (s := driveInt s) h

/-- A close announces every state word that its step has changed. -/
theorem announced_close (b s : State) : Announced b (close b s) stateWords :=
  announced_postChanged b stateWords (driveInt s)

theorem announced_of_same {ws : List Nat} (h : ∀ w ∈ ws, statusWord s w = statusWord b w) : Announced b s ws :=
  fun w hw => .inl (h w hw)

theorem announced_self (s : State) (ws : List Nat) : Announced s s ws := announced_of_same fun _ _ => rfl

/-! ## The offers after a close (R31) -/

theorem currentOffers_close (h : Announced b s stateWords) : currentOffers (close b s) = currentOffers s :=
  currentOffers_congr (close_windows b s) (congrArg _ (close_rc b s)) (close_apply b s) (close_disp b s)
    (postedWords_close h)

/-- The offers that stand keep their order, and those made anew follow them (R31). -/
theorem close_offers (b s : State) :
    (close b s).bpt.offers = (s.bpt.offers.filter fun o => decide (o ∈ currentOffers (close b s))) ++
      (currentOffers (close b s)).filter fun o => decide (o ∉ s.bpt.offers) := by
  obtain ⟨q, hq⟩ := postChanged_spec b stateWords (driveInt s)
  unfold close
  rw [hq]
  rfl

theorem close_waitCount (b s : State) :
    (close b s).bpt.waitCount = if currentOffers (close b s) = [] then 0 else s.bpt.waitCount := by
  obtain ⟨q, hq⟩ := postChanged_spec b stateWords (driveInt s)
  unfold close
  rw [hq]
  exact if_congr List.isEmpty_iff rfl rfl

/-- Offers that all stand keep their places. -/
theorem close_offers_prefix {l : List Offer} (h : s.bpt.offers = l) (stand : ∀ o ∈ l, o ∈ currentOffers (close b s)) :
    l <+: (close b s).bpt.offers := by
  rw [close_offers, h, List.filter_eq_self.mpr fun o ho => decide_eq_true (stand o ho)]
  exact List.prefix_append ..

/-- The offered requests are those the classes offer, and the waiting count is 0 while there is none (R30, R31). -/
def Listed (s : State) : Prop :=
  (∀ o, o ∈ s.bpt.offers ↔ o ∈ currentOffers s) ∧ (currentOffers s = [] → s.bpt.waitCount = 0)

theorem OffersLaw.listed (law : OffersLaw s) : Listed s := law.2

theorem close_listed (b s : State) : Listed (close b s) := by
  refine ⟨fun o => ?_, fun none => ?_⟩
  · rw [close_offers, List.mem_append, List.mem_filter, List.mem_filter, decide_eq_true_eq, decide_eq_true_eq]
    by_cases old : o ∈ s.bpt.offers <;> simp [old]
  · rw [close_waitCount, if_pos none]

theorem Listed.eq_nil (law : Listed s) : s.bpt.offers = [] ↔ currentOffers s = [] := by
  simp only [List.eq_nil_iff_forall_not_mem, law.1]

/-- The request that is offered alone is at the front after the close. -/
theorem close_front_alone {o : Offer} (current : currentOffers (close b s) = [o]) :
    (close b s).bpt.offers.head? = some o := by
  have law := close_listed b s
  cases offers : (close b s).bpt.offers with
  | nil => exact absurd (law.eq_nil.mp offers) (by simp [current])
  | cons y l =>
    have member : y ∈ currentOffers (close b s) := (law.1 y).mp (offers ▸ List.mem_cons_self)
    rw [current, List.mem_singleton] at member
    exact congrArg some member

/-- The offers of a state that lists them are the same after a close that announces nothing. -/
theorem close_offers_same (law : Listed s) (h : Announced b s stateWords) : (close b s).bpt.offers = s.bpt.offers := by
  obtain ⟨listed, -⟩ := law
  have kept : (s.bpt.offers.filter fun o => decide (o ∈ currentOffers s)) = s.bpt.offers :=
    List.filter_eq_self.mpr fun o ho => decide_eq_true ((listed o).mp ho)
  have new : ((currentOffers s).filter fun o => decide (o ∉ s.bpt.offers)) = [] :=
    List.filter_eq_nil_iff.mpr fun o ho => by simpa using (listed o).mpr ho
  rw [close_offers, currentOffers_close h, kept, new, List.append_nil]

/-! ## A slot granted to an upstream access (R30, R31) -/

/-- The state after the memory cycle of an access, before the close of its step. -/
def granted (a : Access) (s : State) : State := countUpstream (driveAccess a s)

theorem granted_spec (a : Access) (s : State) :
    ∃ m r, granted a s =
      { s with
        mem := m
        bpt :=
          { s.bpt with
            readData := r
            waitCount := if s.bpt.offers.isEmpty then 0 else min 32 (s.bpt.waitCount + 1) } } := by
  unfold granted countUpstream driveAccess
  split
  · exact ⟨_, s.bpt.readData, rfl⟩
  · exact ⟨s.mem, _, rfl⟩

theorem granted_unreported (a : Access) (s : State) : (granted a s).unreported = (driveAccess a s).unreported := rfl

theorem statusWord_granted (a : Access) (s : State) (w : Nat) : statusWord (granted a s) w = statusWord s w := by
  obtain ⟨m, r, h⟩ := granted_spec a s
  rw [h]
  rfl

theorem postQueue_granted (a : Access) (s : State) : (granted a s).csu.postQueue = s.csu.postQueue := by
  obtain ⟨m, r, h⟩ := granted_spec a s
  rw [h]

theorem currentOffers_granted (a : Access) (s : State) : currentOffers (granted a s) = currentOffers s := by
  obtain ⟨m, r, h⟩ := granted_spec a s
  rw [h]
  exact currentOffers_congr rfl rfl rfl rfl rfl

theorem offers_granted (a : Access) (s : State) : (granted a s).bpt.offers = s.bpt.offers := by
  obtain ⟨m, r, h⟩ := granted_spec a s
  rw [h]

theorem waitCount_granted (a : Access) (s : State) :
    (granted a s).bpt.waitCount = if s.bpt.offers.isEmpty then 0 else min 32 (s.bpt.waitCount + 1) := by
  obtain ⟨m, r, h⟩ := granted_spec a s
  rw [h]

theorem announced_granted {ws : List Nat} (a : Access) (h : Announced b s ws) : Announced b (granted a s) ws := by
  intro w hw
  rw [statusWord_granted, postedWords, postQueue_granted]
  exact h w hw

/-- The end of a step in which an access has had its memory cycle: the offers stand, and the count has gained 1 while one
waits. -/
structure Granted (a : Access) (s t : State) : Prop where
  view      : t.unreported = (driveAccess a s).unreported
  current   : currentOffers t = currentOffers s
  offers    : t.bpt.offers = s.bpt.offers
  waitCount : t.bpt.waitCount = if currentOffers s = [] then 0 else min 32 (s.bpt.waitCount + 1)

theorem close_granted (a : Access) (law : Listed s) (h : Announced b s stateWords) :
    Granted a s (close b (granted a s)) := by
  have announced := announced_granted a h
  have current : currentOffers (close b (granted a s)) = currentOffers s :=
    (currentOffers_close announced).trans (currentOffers_granted a s)
  have count : (granted a s).bpt.waitCount = if currentOffers s = [] then 0 else min 32 (s.bpt.waitCount + 1) := by
    rw [waitCount_granted]
    exact if_congr (List.isEmpty_iff.trans law.eq_nil) rfl rfl
  have law' : Listed (granted a s) := by
    refine ⟨fun o => ?_, fun none => ?_⟩
    · rw [offers_granted, currentOffers_granted]
      exact law.1 o
    · rw [currentOffers_granted] at none
      rw [count, if_pos none]
  refine ⟨?_, current, (close_offers_same law' announced).trans (offers_granted a s), ?_⟩
  · rw [close_unreported, granted_unreported]
  · rw [close_waitCount, current, count]
    split <;> rfl

/-- Where the state words stand, the memory cycle leaves the posting queue. -/
theorem close_granted_postQueue (a : Access) (law : PostedLaw s) (same : ∀ w ∈ stateWords, statusWord s w = statusWord b w) :
    (close b (granted a s)).csu.postQueue = s.csu.postQueue := by
  refine (postQueue_close_standing fun w hw => postingStands_of_same ?_ fun v hv => ?_).trans (postQueue_granted a s)
  · exact (statusWord_granted a s w).trans (same w hw)
  · rw [statusWord_granted]
    rw [postQueue_granted] at hv
    exact law w hw v hv

/-- An access taken on an open bus, whose decode leaves the waiting rule nothing to serve. -/
theorem present_granted {a : Access} (bus : BusOpen s) (decode : decodeAccess a s = (.forwarded, d))
    (runs : d.rc.bclkQuiet = none) (alone : waitingRule a (close s d) = none) :
    present a s = close (close s d) (granted a (close s d)) := by
  have clock : clockRuns (close s d) = true := by simp [clockRuns, runs]
  rw [present_open bus]
  simp only [takeAccess, decode, forward, clock, grantUpstream, alone]
  rfl

/-- An access taken on an open bus, before which the waiting rule serves class `c`. -/
theorem present_served {a : Access} {c : PortClass} (bus : BusOpen s) (decode : decodeAccess a s = (.forwarded, d))
    (runs : d.rc.bclkQuiet = none) (first : waitingRule a (close s d) = some c) :
    present a s = close (close s d) (granted a (close (close s d) (grantPart c (close s d)))) := by
  have clock : clockRuns (close s d) = true := by simp [clockRuns, runs]
  rw [present_open bus]
  simp only [takeAccess, decode, forward, clock, grantUpstream, first]
  rfl

/-- With the count below 32 the waiting rule serves nothing. -/
theorem waitingRule_below (a : Access) (h : s.bpt.waitCount < 32) : waitingRule a s = none :=
  if_neg (by omega)

end Sys2Proof.Machine
end

section
open Sys2Proof Sys2Proof.Machine
/-! Effects that neither read nor change what the waiting rule settles: what an apply slot, a readout slot and a sequenced
frame do is the same whatever is pending and offered, and leaves the offers and the count. -/

namespace Sys2Proof.Machine

variable {b s t : State} {f g : State → State}

/-- An effect that reads nothing of what the close settles, leaves the offered requests and the waiting count, and only adds
to the words pending. -/
structure Blind (f : State → State) : Prop where
  view      : ∀ s, (f s).unreported = (f s.unreported).unreported
  offers    : ∀ s, (f s).bpt.offers = s.bpt.offers
  waitCount : ∀ s, (f s).bpt.waitCount = s.bpt.waitCount
  words     : ∀ s, postedWords s <+: postedWords (f s)

namespace Blind

/-- The effect in two states that agree under the view of a statement. -/
theorem congr (h : Blind f) (same : t.unreported = s.unreported) : (f t).unreported = (f s).unreported := by
  rw [h.view t, h.view s, same]

theorem stands : Blind fun s => s := ⟨fun _ => rfl, fun _ => rfl, fun _ => rfl, fun _ => List.prefix_refl _⟩

theorem comp (h : Blind f) (h' : Blind g) : Blind fun s => f (g s) :=
  ⟨fun s => h.congr (h'.view s), fun s => (h.offers _).trans (h'.offers s),
    fun s => (h.waitCount _).trans (h'.waitCount s), fun s => (h'.words s).trans (h.words _)⟩

/-- An effect that in each state, and in its view, is one that reads nothing. -/
theorem of_each (h : ∀ s, ∃ g, Blind g ∧ f s = g s ∧ f s.unreported = g s.unreported) : Blind f := by
  refine ⟨fun s => ?_, fun s => ?_, fun s => ?_, fun s => ?_⟩
  all_goals obtain ⟨g, blind, here, seen⟩ := h s
  · rw [here, seen, blind.view]
  · rw [here, blind.offers]
  · rw [here, blind.waitCount]
  · rw [here]
    exact blind.words s

/-- An effect by a value that the view shows. -/
theorem via {α : Type} (k : State → α) (hk : ∀ s, k s.unreported = k s) {e : α → State → State} (h : ∀ a, Blind (e a)) :
    Blind fun s => e (k s) s :=
  ⟨fun s => ((h (k s)).view s).trans (by rw [hk]), fun s => (h _).offers s, fun s => (h _).waitCount s,
    fun s => (h _).words s⟩

theorem ite {p : State → Prop} [∀ s, Decidable (p s)] (hp : ∀ s, p s.unreported = p s) (h : Blind f) (h' : Blind g) :
    Blind fun s => if p s then f s else g s := by
  refine of_each fun s => ?_
  by_cases c : p s
  · exact ⟨f, h, if_pos c, if_pos (hp s ▸ c)⟩
  · exact ⟨g, h', if_neg c, if_neg (hp s ▸ c)⟩

/-- An effect that also looks at the state in which its step began. -/
theorem after {e : State → State → State} (hb : ∀ b s, e b.unreported s = e b s) (h : ∀ b, Blind (e b)) (hf : Blind f) :
    Blind fun s => e s (f s) :=
  ⟨fun s => by
      rw [(h s).congr (hf.view s), hb],
    fun s => ((h s).offers _).trans (hf.offers s), fun s => ((h s).waitCount _).trans (hf.waitCount s),
    fun s => (hf.words s).trans ((h s).words _)⟩

/-- A change that leaves the bus path's part requests and the posting queue. -/
theorem aside (view : ∀ s, (f s).unreported = (f s.unreported).unreported) (offers : ∀ s, (f s).bpt.offers = s.bpt.offers)
    (waitCount : ∀ s, (f s).bpt.waitCount = s.bpt.waitCount) (queue : ∀ s, (f s).csu.postQueue = s.csu.postQueue) : Blind f :=
  ⟨view, offers, waitCount, fun s => by rw [postedWords, postedWords, queue]⟩

/-! ### The blocks -/

theorem onRc (f : RoleController → RoleController) : Blind fun s => s.onRc f :=
  aside (fun _ => rfl) (fun _ => rfl) (fun _ => rfl) fun _ => rfl
theorem onLink (f : Link → Link) : Blind fun s => s.onLink f :=
  aside (fun _ => rfl) (fun _ => rfl) (fun _ => rfl) fun _ => rfl
theorem onApply (f : ApplyEngine → ApplyEngine) : Blind fun s => s.onApply f :=
  aside (fun _ => rfl) (fun _ => rfl) (fun _ => rfl) fun _ => rfl
theorem onDisp (f : Dispatcher → Dispatcher) : Blind fun s => s.onDisp f :=
  aside (fun _ => rfl) (fun _ => rfl) (fun _ => rfl) fun _ => rfl
theorem onPass (f : PassEngine → PassEngine) : Blind fun s => s.onPass f :=
  aside (fun _ => rfl) (fun _ => rfl) (fun _ => rfl) fun _ => rfl
theorem onRts (f : Rts → Rts) : Blind fun s => s.onRts f :=
  aside (fun _ => rfl) (fun _ => rfl) (fun _ => rfl) fun _ => rfl
theorem onJournals (f : Journals → Journals) : Blind fun s => s.onJournals f :=
  aside (fun _ => rfl) (fun _ => rfl) (fun _ => rfl) fun _ => rfl
theorem onMem (f : Memory → Memory) : Blind fun s => s.onMem f :=
  aside (fun _ => rfl) (fun _ => rfl) (fun _ => rfl) fun _ => rfl

/-! ### Reports -/

theorem raise (n : Notice) : Blind (raise n) := aside (fun _ => rfl) (fun _ => rfl) (fun _ => rfl) fun _ => rfl

theorem reportDiscard (m : DiscardMarker) (k : Slot) (p : Nat) : Blind (reportDiscard m k p) :=
  aside (fun _ => rfl) (fun _ => rfl) (fun _ => rfl) fun _ => rfl

theorem postRole : Blind postRole :=
  ⟨fun _ => rfl, fun _ => rfl, fun _ => rfl, fun s => postedWords_post_prefix 0 (statusWord s 0) s⟩

/-! ### The journals and the passes -/

theorem setJournalState (k : Slot) (x : Option JournalState) : Blind (setJournalState k x) := onJournals _

theorem enterDesync (k : Slot) : Blind (enterDesync k) :=
  ite (p := fun s => queuesWrites s.journals.states[k] = true) (fun _ => rfl)
    ((raise .journalDesync).comp (setJournalState k (some .desync))) stands

theorem desyncSlots (l : List Slot) : Blind (desyncSlots l) := by
  induction l with
  | nil => exact stands
  | cons k l ih => exact ih.comp (enterDesync k)

theorem emptyCleared : Blind emptyCleared := by
  have clear : Blind clearDispatcher := aside (fun _ => rfl) (fun _ => rfl) (fun _ => rfl) fun _ => rfl
  have journals : Blind emptyJournals := (desyncSlots allSlots).comp (onJournals _)
  exact journals.comp clear

theorem clearReplication : Blind clearReplication := by
  have clear : Blind bulkClear := onRts _
  have abort : Blind abortSync := (onRts _).comp (onPass _)
  have stop : Blind stopRefresh := onPass _
  exact stop.comp (abort.comp (emptyCleared.comp clear))

theorem decideIfPaired : Blind decideIfPaired := by
  have begin : Blind beginRefresh := aside (fun _ => rfl) (fun _ => rfl) (fun _ => rfl) fun _ => rfl
  have clear : Blind clearMarks := aside (fun _ => rfl) (fun _ => rfl) (fun _ => rfl) fun _ => rfl
  have copies : Blind copyInStep := onJournals _
  have restart : Blind restartSync := (onPass _).comp (copies.comp clear)
  have arm : Blind armSyncBegin := onDisp _
  have start : Blind startSync := arm.comp restart
  have decision : Blind pairingDecision :=
    begin.comp (ite (p := fun s => resumes s = true) (fun _ => rfl) stands start)
  exact ite (p := fun s => decisionHolds s = true) (fun _ => rfl) decision stands

/-! ### The roles -/

theorem setRole (r : Role) : Blind (setRole r) := postRole.comp ((raise .roleChanged).comp (onRc _))

theorem promoteIfDrained : Blind promoteIfDrained := by
  have epoch : Blind fun s => s.onRc fun c => { c with epoch := maxEpoch c.epoch s.link.peer.epoch + 1 } :=
    aside (fun _ => rfl) (fun _ => rfl) (fun _ => rfl) fun _ => rfl
  have promote : Blind promote := decideIfPaired.comp (clearReplication.comp ((setRole .active).comp epoch))
  exact ite (p := fun s => s.rc.role = .takeover ∧ s.apply.queue = []) (fun _ => rfl) promote stands

theorem takeOverNow : Blind takeOverNow := promoteIfDrained.comp (setRole .takeover)

theorem judgeTakeover (b : State) : Blind (judgeTakeover b) := by
  have lost : Blind judgeLost := ite (p := fun s => peerSilent s = true) (fun _ => rfl) takeOverNow stands
  have wins : Blind fun s => if s.csu.timing.takeoverAuto then Machine.takeOverNow s else Machine.raise .noActive s :=
    ite (p := fun s => s.csu.timing.takeoverAuto = true) (fun _ => rfl) takeOverNow (raise .noActive)
  have judged : Blind (judgeNoActive b) :=
    ite (p := fun s => (noActiveJudged b s && localWins s) = true) (fun _ => rfl) wins stands
  exact judged.comp lost

theorem judgeTakeover_after (h : Blind f) : Blind fun s => Machine.judgeTakeover s (f s) :=
  after (fun _ _ => rfl) judgeTakeover h

/-! ### The apply queue -/

theorem settleSeen : Blind settleSeen :=
  ite (p := fun s => s.link.state = .hello ∧ s.link.helloPassed = true ∧ s.apply.queue = []) (fun _ => rfl) (onLink _) stands

theorem queueAck : Blind queueAck :=
  ite (p := fun s => s.link.state = .up ∧ s.apply.applied ≠ s.apply.lastAck) (fun _ => rfl) (onLink _) stands

theorem freeRead (b : State) : Blind (freeRead b) := by
  have freed (a : Addr) : Blind fun s =>
      if (covered b a && !covered s a) = true then s.onBpt fun p => { p with held := .port ⟨false, a, 0, 0, 0⟩ } else s :=
    ite (p := fun s => (covered b a && !covered s a) = true) (fun _ => rfl)
      (aside (fun _ => rfl) (fun _ => rfl) (fun _ => rfl) fun _ => rfl) stands
  refine of_each fun s => ?_
  cases held : s.bpt.held with
  | read a =>
    have held' : s.unreported.bpt.held = .read a := held
    exact ⟨_, freed a, by rw [Machine.freeRead, held], by rw [Machine.freeRead, held']⟩
  | none | port _ | stall _ _ =>
    have held' := show s.unreported.bpt.held = _ from held
    exact ⟨_, stands, by rw [Machine.freeRead, held], by rw [Machine.freeRead, held']⟩

theorem handoverApplied (e : Epoch) : Blind (handoverApplied e) := by
  have adopt : Blind adoptEpoch := aside (fun _ => rfl) (fun _ => rfl) (fun _ => rfl) fun _ => rfl
  have entered : Blind fun s => s.onLink fun l => { l with peer := { l.peer with epoch := e } } := onLink _
  exact ite (p := fun s => s.rc.role = .standby) (fun _ => rfl) ((setRole .takeover).comp (adopt.comp entered)) entered

theorem completeWord (k : Slot) (o : Nat) (merged : Option (DWord × ReadClass)) : Blind (completeWord k o merged) := by
  have counted := onApply fun a => { a with counts := a.counts.set k (a.counts[k] + 1) }
  have lost := (reportDiscard .journalWord k o).comp counted
  rcases merged with _ | ⟨d, c⟩
  · exact counted
  · cases c
    case uncorrectable => exact lost
    all_goals exact counted

theorem completionEffects (x : SeqBody) (merged : Option (DWord × ReadClass)) : Blind (completionEffects x merged) := by
  cases x with
  | record | tombstone => exact stands
  | discard k i => exact reportDiscard .record k i.toNat
  | journalWord k o m d => exact completeWord ..
  | journalBlock k o l w0 w1 w2 w3 =>
    cases l
    · exact stands
    · exact raise .journalRecopied
  | syncBegin => exact onRc fun c => { c with sync := .syncing }
  | syncDone g => exact (raise .syncDone).comp ((onRc _).comp (onPass _))
  | handover e => exact handoverApplied e

theorem completeHead (f : SeqFrame) (rest : List SeqFrame) : Blind (completeHead f rest) := by
  have left : Blind fun s => Machine.freeRead s
      (s.onApply fun a => { a with queue := rest, written := 0, merged := none, applied := f.seq + 1 }) :=
    after (fun _ _ => rfl) freeRead (onApply _)
  have done : Blind fun s => Machine.completionEffects f.body s.apply.merged (Machine.freeRead s
      (s.onApply fun a => { a with queue := rest, written := 0, merged := none, applied := f.seq + 1 })) :=
    Blind.via (fun s => s.apply.merged) (fun _ => rfl) fun m => (completionEffects f.body m).comp left
  exact settleSeen.comp (queueAck.comp done)

theorem completeImmediate (l : List SeqFrame) : Blind (completeImmediate l) := by
  induction l with
  | nil => exact stands
  | cons f rest ih =>
    exact ite (p := fun _ => immediate f.body = true) (fun _ => rfl) (ih.comp (completeHead f rest)) stands

theorem settleQueue : Blind settleQueue := by
  have entries : Blind fun s => Machine.completeImmediate s.apply.queue s :=
    Blind.via (fun s => s.apply.queue) (fun _ => rfl) completeImmediate
  exact promoteIfDrained.comp (ite (p := fun s => applies s.rc.role = true) (fun _ => rfl) entries stands)

/-! ### The slots of the apply class and of the readout class -/

theorem countCorrected (c : ReadClass) : Blind (countCorrected c) :=
  ite (p := fun _ => c = .corrected) (fun _ => rfl) (onDisp _) stands

theorem applyWrite : Blind applyWrite := by
  have word (a : Addr) (d : DWord) : Blind fun s =>
      (s.onMem fun m => memWrite m a (codedWord d)).onApply fun x => { x with written := x.written + 1 } :=
    (onApply _).comp (onMem _)
  have head (a : Addr) (d : DWord) (f : SeqFrame) (rest : List SeqFrame) : Blind fun s =>
      if (entryWrites s.windows s.apply.merged f.body).length ≤ s.apply.written + 1 then
        Machine.judgeTakeover s (Machine.settleQueue (Machine.completeHead f rest
          ((s.onMem fun m => memWrite m a (codedWord d)).onApply fun x => { x with written := x.written + 1 })))
      else (s.onMem fun m => memWrite m a (codedWord d)).onApply fun x => { x with written := x.written + 1 } :=
    ite (fun _ => rfl) (judgeTakeover_after (settleQueue.comp ((completeHead f rest).comp (word a d)))) (word a d)
  refine of_each fun s => ?_
  cases next : nextWrite s with
  | none =>
    have next' : nextWrite s.unreported = none := next
    exact ⟨_, stands, by rw [Machine.applyWrite, next], by rw [Machine.applyWrite, next']⟩
  | some x =>
    have next' : nextWrite s.unreported = some x := next
    cases queue : s.apply.queue with
    | nil =>
      have queue' : s.unreported.apply.queue = [] := queue
      exact ⟨_, stands, by rw [Machine.applyWrite, next, queue], by rw [Machine.applyWrite, next', queue']⟩
    | cons f rest =>
      have queue' : s.unreported.apply.queue = f :: rest := queue
      exact ⟨_, head x.1 x.2 f rest, by rw [Machine.applyWrite, next, queue], by rw [Machine.applyWrite, next', queue']⟩

theorem applyRead : Blind applyRead := by
  have merge (a : Addr) (m : Byte) (d : DWord) : Blind fun s =>
      (Machine.countCorrected (classify (memRead s.mem a)).1 s).onApply fun x =>
        { x with merged := some (mergeBytes (classify (memRead s.mem a)).2 d m, (classify (memRead s.mem a)).1) } :=
    Blind.via (fun s => classify (memRead s.mem a)) (fun _ => rfl)
      (e := fun cd s => (Machine.countCorrected cd.1 s).onApply fun x => { x with merged := some (mergeBytes cd.2 d m, cd.1) })
      fun cd => (onApply _).comp (countCorrected cd.1)
  refine of_each fun s => ?_
  cases next : nextMergeRead s with
  | none =>
    have next' : nextMergeRead s.unreported = none := next
    exact ⟨_, stands, by rw [Machine.applyRead, next], by rw [Machine.applyRead, next']⟩
  | some a =>
    have next' : nextMergeRead s.unreported = some a := next
    cases queue : s.apply.queue with
    | nil =>
      have queue' : s.unreported.apply.queue = [] := queue
      exact ⟨_, stands, by rw [Machine.applyRead, next, queue], by rw [Machine.applyRead, next', queue']⟩
    | cons f rest =>
      have queue' : s.unreported.apply.queue = f :: rest := queue
      cases body : f.body with
      | journalWord k o m d =>
        refine ⟨_, merge a m d, ?_, ?_⟩
        · simp only [Machine.applyRead, next, queue, body]
        · simp only [Machine.applyRead, next', queue', body]
      | _ =>
        refine ⟨_, stands, ?_, ?_⟩
        · simp only [Machine.applyRead, next, queue, body]
        · simp only [Machine.applyRead, next', queue', body]

theorem applyGrant : Blind applyGrant :=
  ite (p := fun s => (nextMergeRead s).isSome = true) (fun _ => rfl) applyRead applyWrite

theorem takeWord (e : InFlight) (r : Fin 4) (ro : Readout) (c : ReadClass) (d : DWord) : Blind (takeWord e r ro c d) := by
  have reports {f : State → State} (h : Blind f) (m : DiscardMarker) (k : Slot) (i : Nat) : Blind fun s =>
      if c = .uncorrectable then Machine.reportDiscard m k i (f s) else f s :=
    ite (p := fun _ => c = .uncorrectable) (fun _ => rfl) ((reportDiscard m k i).comp h) h
  refine of_each fun s => ?_
  cases item : ro.item with
  | block k f =>
    refine ⟨_, reports (onDisp (setReadout r (some { ro with
      words := ro.words ++ [(d, c)], reading := decide ((ro.words ++ [(d, c)]).length ≠ 4) }))) .journalBlock k f, ?_, ?_⟩
    all_goals simp only [Machine.takeWord, item]
  | record k i =>
    cases table : recordAt s.windows k with
    | none =>
      have table' : recordAt s.unreported.windows k = none := table
      refine ⟨_, stands, ?_, ?_⟩
      · simp only [Machine.takeWord, item, table]
      · simp only [Machine.takeWord, item, table']
    | some w =>
      have table' : recordAt s.unreported.windows k = some w := table
      refine ⟨_, reports (onDisp fun dd => setReadout r (some { ro with
        words := ro.words ++ [(d, c)], reading := (formReached w.size (ro.words ++ [(d, c)])).isNone })
          (onEntry e.seq (fun x => { x with form := formReached w.size (ro.words ++ [(d, c)]) }) dd)) .record k i, ?_, ?_⟩
      · simp only [Machine.takeWord, item, table]
      · simp only [Machine.takeWord, item, table']

theorem readoutWord : Blind readoutWord := by
  have word (e : InFlight) (r : Fin 4) (ro : Readout) (a : Addr) : Blind fun s =>
      Machine.takeWord e r ro (classify (memRead s.mem a)).1 (classify (memRead s.mem a)).2
        (Machine.countCorrected (classify (memRead s.mem a)).1 s) :=
    Blind.via (fun s => classify (memRead s.mem a)) (fun _ => rfl)
      (e := fun cd s => Machine.takeWord e r ro cd.1 cd.2 (Machine.countCorrected cd.1 s))
      fun cd => (takeWord e r ro cd.1 cd.2).comp (countCorrected cd.1)
  refine of_each fun s => ?_
  cases reads : readingEntry s.disp with
  | none =>
    have reads' : readingEntry s.unreported.disp = none := reads
    exact ⟨_, stands, by rw [Machine.readoutWord, reads], by rw [Machine.readoutWord, reads']⟩
  | some e =>
    have reads' : readingEntry s.unreported.disp = some e := reads
    cases slot : e.readout with
    | none =>
      refine ⟨_, stands, ?_, ?_⟩
      · simp only [Machine.readoutWord, reads, slot]
      · simp only [Machine.readoutWord, reads', slot]
    | some r =>
      cases readout : readoutOf s.disp e with
      | none =>
        have readout' : readoutOf s.unreported.disp e = none := readout
        refine ⟨_, stands, ?_, ?_⟩
        · simp only [Machine.readoutWord, reads, slot, readout]
        · simp only [Machine.readoutWord, reads', slot, readout']
      | some ro =>
        have readout' : readoutOf s.unreported.disp e = some ro := readout
        cases addr : readoutAddr s.windows ro with
        | none =>
          have addr' : readoutAddr s.unreported.windows ro = none := addr
          refine ⟨_, stands, ?_, ?_⟩
          · simp only [Machine.readoutWord, reads, slot, readout, addr]
          · simp only [Machine.readoutWord, reads', slot, readout', addr']
        | some a =>
          have addr' : readoutAddr s.unreported.windows ro = some a := addr
          refine ⟨_, word e r ro a, ?_, ?_⟩
          · simp only [Machine.readoutWord, reads, slot, readout, addr]
          · simp only [Machine.readoutWord, reads', slot, readout', addr']

/-! ### A sequenced frame -/

theorem countFrame : Blind countFrame := aside (fun _ => rfl) (fun _ => rfl) (fun _ => rfl) fun _ => rfl

theorem judgeSequenced (f : SeqFrame) : Blind (judgeSequenced f) := by
  have gap : Blind meetGap := ite (p := fun s => s.link.nakPending = true) (fun _ => rfl) stands (onLink _)
  have accept : Blind (acceptFrame f) := aside (fun _ => rfl) (fun _ => rfl) (fun _ => rfl) fun _ => rfl
  have expected : Blind fun s =>
      if s.apply.queue.length < Config.listRoom then Machine.acceptFrame f s
      else Machine.meetGap (s.onLink fun l => { l with protocolErrors := saturatingInc l.protocolErrors }) :=
    ite (fun _ => rfl) accept (gap.comp (onLink _))
  have behind : Blind fun s => if seqBefore s.link.expected f.seq = true then Machine.meetGap s else s :=
    ite (fun _ => rfl) gap stands
  exact ite (p := fun s => f.seq = s.link.expected) (fun _ => rfl) expected
    (ite (p := fun s => seqBefore f.seq s.link.expected = true) (fun _ => rfl) (onLink _) behind)

theorem receiveSequenced (f : SeqFrame) : Blind (receiveSequenced f) := by
  have drop : Blind dropInvalid := onLink _
  have pass : Blind passFrame := ite (p := fun s => s.link.state = .train) (fun _ => rfl) (onLink _) stands
  have judged : Blind fun s =>
      if s.apply.queue = [] then Machine.settleQueue (Machine.judgeSequenced f s) else Machine.judgeSequenced f s :=
    ite (fun _ => rfl) (settleQueue.comp (judgeSequenced f)) (judgeSequenced f)
  have take : Blind (takeSequenced f) :=
    ite (p := fun s => s.link.state = .up ∧ s.rc.role = .standby) (fun _ => rfl) judged stands
  have known : Blind fun s =>
      if namesKnown s.windows f.body = true then
        Machine.judgeTakeover s (Machine.takeSequenced f (Machine.countFrame s))
      else Machine.dropInvalid s :=
    ite (fun _ => rfl) (judgeTakeover_after (take.comp countFrame)) drop
  exact ite (p := fun s => checksFrames s.link = true) (fun _ => rfl) known pass

end Blind

/-- The start of an item leaves the bus path and the postings (R57 to R60). -/
theorem startNext_bpt (s : State) : (startNext s).bpt = s.bpt := by
  unfold startNext
  split
  · unfold startItem
    split
    · rfl
    · split
      · rfl
      · split <;> rfl
    · split <;> rfl
  · rfl

end Sys2Proof.Machine
end

section
open Sys2Proof Sys2Proof.Machine
/-! The slot that the waiting rule gives to a class before an upstream access (R31). -/

namespace Sys2Proof.Machine

variable {b s t u x : State} {c : PortClass} {a : Access} {o : Offer} {os : List Offer} {p : Posting}
  {rest : List Posting}

/-! ## What a slot of a class leaves offered -/

/-- The state in which a slot of class `c` is served: the count starts again, and the class waits anew (R30, R31). -/
def slotState (c : PortClass) (s : State) : State :=
  s.onBpt fun b => { b with waitCount := 0, offers := b.offers.filter fun o => decide (o.cls ≠ c) }

theorem grantPart_eq (c : PortClass) (s : State) : grantPart c s = serve c (slotState c s) := rfl

theorem postingWrite_bpt (s : State) : (postingWrite s).bpt = s.bpt := by
  cases queue : s.csu.postQueue with
  | nil => simp only [postingWrite, queue]
  | cons p rest =>
    obtain ⟨q, r, h, -⟩ := postingWrite_spec queue
    rw [h]

theorem serve_offers (c : PortClass) (s : State) : (serve c s).bpt.offers = s.bpt.offers := by
  cases c
  · exact Blind.applyGrant.offers s
  · exact Blind.readoutWord.offers s
  · exact congrArg Bpt.offers (postingWrite_bpt s)

theorem serve_waitCount (c : PortClass) (s : State) : (serve c s).bpt.waitCount = s.bpt.waitCount := by
  cases c
  · exact Blind.applyGrant.waitCount s
  · exact Blind.readoutWord.waitCount s
  · exact congrArg Bpt.waitCount (postingWrite_bpt s)

theorem grantPart_offers (c : PortClass) (s : State) :
    (grantPart c s).bpt.offers = s.bpt.offers.filter fun o => decide (o.cls ≠ c) := by
  rw [grantPart_eq, serve_offers]
  rfl

theorem grantPart_waitCount (c : PortClass) (s : State) : (grantPart c s).bpt.waitCount = 0 := by
  rw [grantPart_eq, serve_waitCount]
  rfl

theorem statusOffer_prefix (h : postedWords s <+: postedWords t) (ho : o ∈ statusOffer s) : o ∈ statusOffer t := by
  obtain ⟨w, hw, rfl⟩ := Option.map_eq_some_iff.mp (Option.mem_toList.mp ho)
  obtain ⟨l, hl⟩ := h
  refine Option.mem_toList.mpr (Option.map_eq_some_iff.mpr ⟨w, ?_, rfl⟩)
  rw [← hl, List.head?_append, hw]
  rfl

/-- A close leaves every request offered. -/
theorem offered_close (b : State) (h : o ∈ currentOffers s) : o ∈ currentOffers (close b s) := by
  rw [mem_currentOffers] at h ⊢
  cases hc : o.cls <;> rw [hc] at h
  · exact (congrArg (o ∈ ·) (applyOffer_congr (close_windows b s) (congrArg _ (close_rc b s)) (close_apply b s))).mpr h
  · exact (congrArg (o ∈ readoutOffer ·) (close_disp b s)).mpr h
  · exact statusOffer_prefix (postedWords_close_prefix b s) h

/-- The apply class and the readout class do not offer together (R57, R104). -/
theorem readoutOffer_nil (law : RoleLaw s) (h : applyOffer s ≠ []) : readoutOffer s.disp = [] := by
  have queue : s.apply.queue ≠ [] := by
    intro empty
    refine h ?_
    rw [applyOffer, empty]
    exact ite_self _
  have quiet : s.disp.inFlight = [] := by
    by_contra flight
    have applying := law.apply queue
    have claiming := (law.inFlight flight).1
    cases role : s.rc.role <;> simp [applies, claims, role] at applying claiming
  simp [readoutOffer, readingEntry, quiet]

/-- A slot of a class leaves offered what the other classes offer, of which the apply class and the readout class do not
offer together. -/
theorem offered_serve (apart : applyOffer s ≠ [] → readoutOffer s.disp = []) (mine : classOffer c s ≠ [])
    (h : o ∈ currentOffers s) (hc : o.cls ≠ c) : o ∈ currentOffers (serve c s) := by
  rw [mem_currentOffers] at h ⊢
  have nonempty : classOffer o.cls s ≠ [] := List.ne_nil_of_mem h
  cases c with
  | apply =>
    cases k : o.cls <;> rw [k] at h hc nonempty
    · exact absurd rfl hc
    · exact absurd (apart mine) nonempty
    · exact statusOffer_prefix (Blind.applyGrant.words s) h
  | readout =>
    cases k : o.cls <;> rw [k] at h hc nonempty
    · exact absurd (apart nonempty) mine
    · exact absurd rfl hc
    · exact statusOffer_prefix (Blind.readoutWord.words s) h
  | status =>
    have same : applyOffer (postingWrite s) = applyOffer s ∧ (postingWrite s).disp = s.disp := by
      cases queue : s.csu.postQueue with
      | nil => simp only [postingWrite, queue, and_self]
      | cons p rest =>
        obtain ⟨q, r, e, -⟩ := postingWrite_spec queue
        rw [e]
        exact ⟨applyOffer_congr rfl rfl rfl, rfl⟩
    cases k : o.cls <;> rw [k] at h hc
    · exact (congrArg (o ∈ ·) same.1).mpr h
    · exact (congrArg (o ∈ readoutOffer ·) same.2).mpr h
    · exact absurd rfl hc

/-! ## The class served, and the access behind it -/

/-- The memory cycle of an access depends on the view of the state before it. -/
theorem driveAccess_view (a : Access) (h : t.unreported = s.unreported) :
    (driveAccess a t).unreported =
      (if a.write then { s with mem := memDrive s.mem a }
       else { s with bpt := { s.bpt with readData := memRead s.mem a.addr } } : State).unreported := by
  rw [driveAccess_unreported, mem_of_unreported h, h]
  split <;> rfl

/-- A step in which class `c` is served before the access `a`: `u` is as the slot leaves it. -/
structure ServedBefore (c : PortClass) (a : Access) (x u t : State) : Prop where
  slot    : u.unreported = (serve c (slotState c x)).unreported
  view    : t.unreported = (driveAccess a u).unreported
  current : currentOffers t = currentOffers u
  offers  : t.bpt.offers = u.bpt.offers
  count   : t.bpt.waitCount = if currentOffers t = [] then 0 else 1

theorem servedBefore (c : PortClass) (a : Access) (x : State) :
    ServedBefore c a x (close x (grantPart c x)) (close x (granted a (close x (grantPart c x)))) := by
  have step := close_granted (b := x) a (close_listed x (grantPart c x)) (announced_close x _)
  have zero : (close x (grantPart c x)).bpt.waitCount = 0 := close_waitCount_zero (grantPart_waitCount c x)
  refine ⟨close_unreported .., step.view, step.current, step.offers, ?_⟩
  rw [step.waitCount, step.current, zero]
  rfl

/-- With the count at 32 the class that has waited longest takes the slot, but for a readout read of the very word. -/
theorem waitingRule_front (count : s.bpt.waitCount = 32) (front : s.bpt.offers.head? = some o)
    (other : o.cls = .readout → ¬ (a.write = true ∧ offeredReadout s = some a.addr)) : waitingRule a s = some o.cls := by
  unfold waitingRule
  rw [if_pos count, front]
  cases k : o.cls with
  | readout => simp [k, other k]
  | apply | status => simp [k]

/-- The count stays at 32 over a close that leaves a request waiting. -/
theorem close_waitCount_full (count : s.bpt.waitCount = 32) (h : o ∈ currentOffers (close b s)) :
    (close b s).bpt.waitCount = 32 := by
  rw [close_waitCount, if_neg (List.ne_nil_of_mem h), count]

theorem currentOffers_close_self (s : State) : currentOffers (close s s) = currentOffers s :=
  currentOffers_close (announced_self s _)

theorem offeredReadout_congr (windows : t.windows = s.windows) (disp : t.disp = s.disp) :
    offeredReadout t = offeredReadout s := by
  unfold offeredReadout
  rw [windows, disp]

theorem offeredReadout_close (b s : State) : offeredReadout (close b s) = offeredReadout s :=
  offeredReadout_congr (close_windows b s) (close_disp b s)

/-- An access whose decode delivers nothing, before which the class of the front request is served. -/
theorem present_front (bus : BusOpen s) (decode : decodeAccess a s = (.forwarded, s)) (count : s.bpt.waitCount = 32)
    (front : (close s s).bpt.offers.head? = some o) (other : o.cls = .readout → ¬ (a.write = true ∧ offeredReadout s = some a.addr)) :
    ServedBefore o.cls a (close s s) (close (close s s) (grantPart o.cls (close s s))) (present a s) := by
  have offered : o ∈ currentOffers (close s s) := ((close_listed s s).1 o).mp (List.mem_of_mem_head? front)
  have first : waitingRule a (close s s) = some o.cls :=
    waitingRule_front (close_waitCount_full count offered) front (by rw [offeredReadout_close]; exact other)
  rw [present_served bus decode bus.2.2 first]
  exact servedBefore o.cls a (close s s)

/-- The other requests keep their places behind the slot of a class. -/
theorem others_stand (law : OffersLaw s) (apart : applyOffer s ≠ [] → readoutOffer s.disp = [])
    (front : s.bpt.offers = o :: os) : os <+: (close b (grantPart o.cls s)).bpt.offers := by
  obtain ⟨nodup, listed, -⟩ := law
  have offered (y : Offer) (hy : y ∈ o :: os) : y ∈ currentOffers s := (listed y).mp (front ▸ hy)
  have mine : o ∈ classOffer o.cls s := mem_currentOffers.mp (offered o List.mem_cons_self)
  have apart' (y : Offer) (hy : y ∈ os) : y.cls ≠ o.cls := by
    intro same
    have his := mem_currentOffers.mp (offered y (List.mem_cons_of_mem o hy))
    rw [same] at his
    rw [front, classOffer_unique mine his] at nodup
    exact (List.nodup_cons.mp nodup).1 hy
  have left : (grantPart o.cls s).bpt.offers = os := by
    rw [grantPart_offers, front, List.filter_cons_of_neg (by simp)]
    exact List.filter_eq_self.mpr fun y hy => decide_eq_true (apart' y hy)
  refine close_offers_prefix left fun y hy => offered_close b ?_
  exact offered_serve (s := slotState o.cls s) apart (List.ne_nil_of_mem mine)
    (offered y (List.mem_cons_of_mem o hy)) (apart' y hy)

/-! ## The apply class and the readout class -/

/-- A slot of the apply class or of the readout class does the same in two states that agree under the view. -/
theorem serve_view (hc : c ≠ .status) (h : t.unreported = s.unreported) :
    (serve c (slotState c t)).unreported = (serve c (slotState c s)).unreported := by
  have same : (slotState c t).unreported = (slotState c s).unreported := h
  cases c
  · exact Blind.applyGrant.congr same
  · exact Blind.readoutWord.congr same
  · exact absurd rfl hc

/-- The class of the front request is the class the arbiter serves in a slot of its own, but for a status posting. -/
theorem nextClass_front (bus : BusOpen s) (law : OffersLaw s) (role : RoleLaw s) (front : s.bpt.offers = o :: os)
    (hc : o.cls ≠ .status) : nextClass s = some o.cls := by
  have ready : upstreamReady s = false := by simp [upstreamReady, bus.1]
  have mine : o ∈ classOffer o.cls s := mem_currentOffers.mp ((law.2.1 o).mp (front ▸ List.mem_cons_self))
  have head (l l' : List Offer) (h : o ∈ l) (only : ∀ y ∈ l, y.cls = o.cls) : ((l ++ l').head?.map Offer.cls) = some o.cls := by
    cases l with
    | nil => cases h
    | cons y l => exact congrArg some (only y List.mem_cons_self)
  rw [nextClass, ready, if_neg (by decide), currentOffers_eq]
  cases k : o.cls with
  | status => exact absurd k hc
  | apply =>
    rw [k] at mine
    rw [List.append_assoc, ← k]
    exact head _ _ mine fun y hy => (cls_of_applyOffer hy).trans k.symm
  | readout =>
    rw [k] at mine
    have none : applyOffer s = [] := by
      by_contra some
      exact absurd (readoutOffer_nil role some) (List.ne_nil_of_mem mine)
    rw [none, List.nil_append, ← k]
    exact head _ _ mine fun y hy => (cls_of_readoutOffer hy).trans k.symm

/-- The row of a class's own slot on a running clock. -/
theorem portSlot_own (bus : BusOpen s) (h : nextClass s = some c) : portSlot c s = serve c (slotState c s) :=
  portSlot_running bus.2.2 h

theorem front_closed (law : OffersLaw s) (front : s.bpt.offers = o :: os) : (close s s).bpt.offers = o :: os :=
  (close_offers_same law.listed (announced_self s _)).trans front

/-- The requests behind the front one keep their places in a step that serves its class. -/
theorem others_behind (law : OffersLaw s) (role : RoleLaw s) (front : s.bpt.offers = o :: os)
    (step : ServedBefore o.cls a (close s s) (close (close s s) (grantPart o.cls (close s s))) t) :
    os <+: t.bpt.offers := by
  rw [step.offers]
  have same : applyOffer (close s s) = applyOffer s :=
    applyOffer_congr (close_windows s s) (congrArg _ (close_rc s s)) (close_apply s s)
  refine others_stand (close_offersLaw s s law.1) (fun some => ?_) (front_closed law front)
  rw [same] at some
  rw [close_disp]
  exact readoutOffer_nil role some

/-- The class of the front request is served as its own row serves it, and the access has the next slot. -/
theorem served_own {row : Instr} (bus : BusOpen s) (law : OffersLaw s) (role : RoleLaw s) (count : s.bpt.waitCount = 32)
    (front : s.bpt.offers = o :: os) (hc : o.cls ≠ .status) (ordinary : regionOf s.windows a.addr = .ordinary)
    (other : ¬ (a.write = true ∧ offeredReadout s = some a.addr))
    (own : exec row s = .next (close s (portSlot o.cls s))) :
    ∃ u t, exec row s = .next u ∧ exec (.ordinaryAccess a) s = .next t ∧
      t.unreported =
        (if a.write then { u with mem := memDrive u.mem a }
         else { u with bpt := { u.bpt with readData := memRead u.mem a.addr } } : State).unreported ∧
      os <+: t.bpt.offers ∧ t.bpt.waitCount = if currentOffers t = [] then 0 else 1 := by
  have first : (close s s).bpt.offers.head? = some o := by rw [front_closed law front]; rfl
  have step := present_front bus (decodeAccess_ordinary (.inl ordinary)) count first fun _ => other
  refine ⟨_, _, own, rfl, step.view.trans (driveAccess_view a ?_), others_behind law role front step, step.count⟩
  rw [step.slot, close_unreported, portSlot_own bus (nextClass_front bus law role front hc)]
  exact serve_view hc (close_unreported s s)

/-! ## The status class -/

theorem postQueue_close_self (posted : PostedLaw s) : (close s s).csu.postQueue = s.csu.postQueue :=
  postQueue_close_standing fun w hw => postingStands_of_same rfl (posted w hw)

/-- The state words stand over the slot of a posting write that takes the front word of the queue. -/
theorem postingWrite_standing (posted : PostedLaw x) (fits : PostsFit (p :: rest)) (queue : x.csu.postQueue = p :: rest)
    (hs : s.csu.postQueue = rest) (same : ∀ w, statusWord s w = statusWord x w) :
    (close x s).csu.postQueue = rest := by
  refine (postQueue_close_standing (statesStand posted same fun w _ v hv => ?_)).trans hs
  rw [hs, pendingValue_tail fits] at hv
  split at hv
  · cases hv
  · rw [queue]
    exact hv

/-- The waiting rule gives the slot to a status posting. -/
theorem status_served {n : Nat} (bus : BusOpen s) (decode : decodeAccess a s = (.forwarded, s))
    (count : s.bpt.waitCount = 32) (front : (close s s).bpt.offers.head? = some (.status n))
    (queue : s.csu.postQueue = p :: rest) (plain : n ≠ 2 ∨ s.csu.resultHold = none) (posted : PostedLaw s)
    (room : RoomLaw s) :
    p.word = n ∧ (present a s).csu.postQueue = rest ∧
      (present a s).unreported =
        (if a.write then
          { s with mem := memDrive (memWrite s.mem (BitVec.ofNat 19 (524160 + n)) (codedWord p.value)) a }
         else
          { s with
            mem := memWrite s.mem (BitVec.ofNat 19 (524160 + n)) (codedWord p.value)
            bpt :=
              { s.bpt with
                readData := memRead (memWrite s.mem (BitVec.ofNat 19 (524160 + n)) (codedWord p.value)) a.addr } } :
          State).unreported := by
  have queue' : (close s s).csu.postQueue = p :: rest := (postQueue_close_self posted).trans queue
  have fits : PostsFit (p :: rest) := queue ▸ room.2.2.2.2
  have word : p.word = n := by
    have offered := mem_currentOffers.mp (((close_listed s s).1 _).mp (List.mem_of_mem_head? front))
    obtain ⟨w, hw, e⟩ := Option.map_eq_some_iff.mp (Option.mem_toList.mp offered)
    rw [postedWords, queue'] at hw
    exact (Option.some.inj hw).trans (Offer.status.inj e)
  have step := present_front bus decode count front nofun
  obtain ⟨q, r, l, slot, taken, -, -⟩ := grantPart_status queue'
  have left : q = rest := by
    refine (taken ?_).1
    rw [close_resultHold, word]
    exact plain.imp_right .inr
  have same (w : Nat) : statusWord (grantPart .status (close s s)) w = statusWord (close s s) w := by
    rw [slot]
    rfl
  have stands : (close (close s s) (grantPart .status (close s s))).csu.postQueue = rest := by
    refine postingWrite_standing (close_posted s s) fits queue' ?_ same
    rw [slot]
    exact left
  refine ⟨word, ?_, step.view.trans (driveAccess_view a (s :=
    { s with mem := memWrite s.mem (BitVec.ofNat 19 (524160 + n)) (codedWord p.value) }) ?_)⟩
  · have first : waitingRule a (close s s) = some .status :=
      waitingRule_front (close_waitCount_full count (((close_listed s s).1 _).mp (List.mem_of_mem_head? front))) front nofun
    rw [present_served bus decode bus.2.2 first]
    refine (close_granted_postQueue a (close_posted _ _) fun w _ => ?_).trans stands
    rw [statusWord_close, same]
  · rw [show (Offer.status n).cls = .status from rfl, close_unreported, slot, word, close_mem]
    obtain ⟨q', o', n', e⟩ := close_spec s s
    rw [e]
    rfl

end Sys2Proof.Machine
end

section
open Sys2Proof Sys2Proof.Machine
/-! Window writes while a part request waits: the restart of a readout, the word it reads next, and the waiting count
(R22, R31, R63). -/

namespace Sys2Proof.Machine

variable {b s t d : State} {k : Slot} {w : RecordWindow} {i p : Nat} {addr : Addr} {data : DWord} {check e : Byte}

/-! ## A restarted readout -/

/-- A readout begun again (R63). -/
def Readout.begunAgain (r : Readout) : Readout := { r with words := [], restarts := r.restarts + 1 }

/-- The Dispatcher with the readout slot `r` of the entry `x` restarted in a capture of record `i` of slot `k`. -/
structure Restarted (k : Slot) (i : Nat) (d d' : Dispatcher) (x : InFlight) (r : Fin 4) (ro : Readout) : Prop where
  entry   : x ∈ d.inFlight
  item    : x.item = .record k i
  slot    : x.readout = some r
  readout : d.readouts[r] = some ro
  reading : ro.reading = true
  below   : ro.restarts < 3
  result  : d' = setReadout r (some ro.begunAgain) d

theorem recordEvent_disp (v : TagEvent) (k : Slot) (i : Nat) (s : State) : (recordEvent v k i s).disp = s.disp := by
  unfold recordEvent
  split <;> rfl

/-- A capture restarts one readout of its record, or leaves the Dispatcher. -/
theorem restartReadout_cases (k : Slot) (i : Nat) (s : State) :
    (restartReadout k i s).disp = s.disp ∨
      ∃ x r ro, Restarted k i s.disp (restartReadout k i s).disp x r ro := by
  unfold restartReadout
  cases found : s.disp.inFlight.find? fun x => decide (x.item = .record k i) && stillReading s.disp x with
  | none => exact .inl rfl
  | some x =>
    have test := List.find?_some found
    simp only [Bool.and_eq_true, decide_eq_true_eq] at test
    obtain ⟨item, still⟩ := test
    cases slot : x.readout with
    | none => exact .inl (by simp only [slot])
    | some r =>
      cases readout : readoutOf s.disp x with
      | none => exact .inl (by simp only [slot, readout])
      | some ro =>
        simp only [slot, readout]
        split
        · next below =>
          have held : s.disp.readouts[r] = some ro := by
            rw [readoutOf, slot] at readout
            exact readout
          have reading : ro.reading = true := by
            rw [stillReading, readout] at still
            exact still
          exact .inr ⟨x, r, ro, List.mem_of_find?_eq_some found, item, slot, held, reading, below, recordEvent_disp ..⟩
        · exact .inl rfl

theorem capture_cases (k : Slot) (w : RecordWindow) (i p : Nat) (s : State) :
    (capture k w i p s).disp = s.disp ∨
      (w.isVolatile p = false ∧ ∃ x r ro, Restarted k i s.disp (capture k w i p s).disp x r ro) := by
  unfold capture
  split
  · exact .inl rfl
  · next structural =>
    exact (restartReadout_cases k i (tagEvent .structuralCapture (w.tagBase + i) s)).imp_right
      fun h => ⟨by simpa using structural, h⟩

/-- The readout that the entry `y` holds after a restart of the slot `r`. -/
theorem readoutOf_setReadout (r : Fin 4) (x : Option Readout) (d : Dispatcher) (y : InFlight) :
    readoutOf (setReadout r x d) y = if y.readout = some r then x else readoutOf d y := by
  unfold readoutOf setReadout
  cases slot : y.readout with
  | none => simp
  | some j =>
    by_cases same : j = r
    · simp [same]
    · have apart : ¬ r.val = j.val := fun h => same (Fin.ext h.symm)
      simp [same, apart]

namespace Restarted

variable {d d' : Dispatcher} {x : InFlight} {r : Fin 4} {ro : Readout}

theorem readoutOf (h : Restarted k i d d' x r ro) (y : InFlight) :
    readoutOf d' y = if y.readout = some r then some ro.begunAgain else Machine.readoutOf d y := by
  rw [h.result, readoutOf_setReadout]

theorem held (h : Restarted k i d d' x r ro) {y : InFlight} (mine : y.readout = some r) :
    Machine.readoutOf d y = some ro := by
  rw [Machine.readoutOf, mine]
  exact h.readout

theorem stillReading (h : Restarted k i d d' x r ro) (y : InFlight) : stillReading d' y = stillReading d y := by
  unfold Machine.stillReading
  rw [h.readoutOf]
  by_cases mine : y.readout = some r
  · rw [if_pos mine, h.held mine]
    rfl
  · rw [if_neg mine]

/-- The restart leaves which entry is read next (R60). -/
theorem readingEntry (h : Restarted k i d d' x r ro) : readingEntry d' = readingEntry d := by
  have list : d'.inFlight = d.inFlight := by rw [h.result]; rfl
  rw [Machine.readingEntry, Machine.readingEntry, list]
  exact congrArg (d.inFlight.find? ·) (funext h.stillReading)

end Restarted

/-- The request of the readout class by the entry it serves and the readout that entry holds (R60). -/
theorem readoutOffer_some {d : Dispatcher} {y : InFlight} {ro : Readout} (reads : readingEntry d = some y)
    (readout : readoutOf d y = some ro) : readoutOffer d = [.readout y.seq ro.restarts ro.words.length] := by
  simp [readoutOffer, reads, readout]

theorem offeredReadout_some {y : InFlight} {ro : Readout} (reads : readingEntry s.disp = some y)
    (readout : readoutOf s.disp y = some ro) : offeredReadout s = readoutAddr s.windows ro := by
  unfold offeredReadout
  rw [reads]
  simp only [readout]

theorem readoutOffer_mem {d : Dispatcher} {q : SeqNo} {n m : Nat} (h : Offer.readout q n m ∈ readoutOffer d) :
    ∃ y ro, readingEntry d = some y ∧ readoutOf d y = some ro ∧ y.seq = q ∧ ro.restarts = n ∧ ro.words.length = m := by
  obtain ⟨y, reads, h⟩ := Option.bind_eq_some_iff.mp (Option.mem_toList.mp h)
  obtain ⟨ro, readout, h⟩ := Option.map_eq_some_iff.mp h
  cases h
  exact ⟨y, ro, reads, readout, rfl, rfl, rfl⟩

/-- A capture leaves a readout request where there is one. -/
theorem readoutOffer_restarted {d d' : Dispatcher} {x : InFlight} {r : Fin 4} {ro : Readout}
    (h : Restarted k i d d' x r ro) : readoutOffer d' = [] ↔ readoutOffer d = [] := by
  unfold readoutOffer
  rw [h.readingEntry]
  cases readingEntry d with
  | none => rfl
  | some y =>
    simp only [Option.bind_some, Option.toList_eq_nil_iff, Option.map_eq_none_iff, h.readoutOf]
    by_cases mine : y.readout = some r
    · simp [mine, h.held mine]
    · rw [if_neg mine]

/-! ## What a decode leaves for the close -/

/-- What a decode in a window changes of what the close looks at: at most the readouts. -/
structure Decoded (s d : State) : Prop where
  bpt     : d.bpt.offers = s.bpt.offers ∧ d.bpt.waitCount = s.bpt.waitCount
  windows : d.windows = s.windows
  rc      : d.rc = s.rc
  apply   : d.apply = s.apply
  queue   : d.csu.postQueue = s.csu.postQueue
  mem     : d.mem = s.mem
  words   : ∀ x ∈ stateWords, statusWord d x = statusWord s x

namespace Decoded

theorem refl (s : State) : Decoded s s := ⟨⟨rfl, rfl⟩, rfl, rfl, rfl, rfl, rfl, fun _ _ => rfl⟩

theorem announced (h : Decoded s d) : Announced s d stateWords := announced_of_same h.words

theorem postedWords (h : Decoded s d) : postedWords d = postedWords s := by
  rw [Machine.postedWords, h.queue]
  rfl

/-- With the readout class's request as it was the offers are as they were. -/
theorem currentOffers (h : Decoded s d) (readout : readoutOffer d.disp = readoutOffer s.disp) :
    currentOffers d = currentOffers s := by
  rw [currentOffers_eq, currentOffers_eq, applyOffer_congr h.windows (congrArg _ h.rc) h.apply, readout,
    statusOffer_congr h.postedWords]

theorem capture (k : Slot) (w : RecordWindow) (i p : Nat) (s : State) : Decoded s (capture k w i p s) := by
  obtain ⟨x, d, h⟩ := capture_spec k w i p s
  rw [h]
  refine ⟨⟨rfl, rfl⟩, rfl, rfl, rfl, rfl, rfl, fun y hy => ?_⟩
  simp only [stateWords, List.mem_cons, List.not_mem_nil, or_false] at hy
  rcases hy with rfl | rfl | rfl | rfl | rfl <;> rfl

theorem appendEntry (x : JournalEntry) (s : State) : Decoded s (appendEntry x s) := by
  refine ⟨⟨rfl, rfl⟩, rfl, rfl, rfl, rfl, rfl, fun y hy => ?_⟩
  simp only [stateWords, List.mem_cons, List.not_mem_nil, or_false] at hy
  rcases hy with rfl | rfl | rfl | rfl | rfl <;> rfl

theorem mergeShadow (j : Nat) (data : DWord) (e : Byte) (s : State) : Decoded s (mergeShadow j data e s) := by
  rw [mergeShadow_eq]
  exact ⟨⟨rfl, rfl⟩, rfl, rfl, rfl, rfl, rfl, fun y _ => rfl⟩

theorem countSuppressed (s : State) : Decoded s (countSuppressed s) := by
  refine ⟨⟨rfl, rfl⟩, rfl, rfl, rfl, rfl, rfl, fun y hy => ?_⟩
  simp only [stateWords, List.mem_cons, List.not_mem_nil, or_false] at hy
  rcases hy with rfl | rfl | rfl | rfl | rfl <;> rfl

/-- A decode that leaves the readout class's request leaves the offers after the close. -/
theorem close_offers (h : Decoded s d) (readout : readoutOffer d.disp = readoutOffer s.disp) (law : Listed s) :
    (close s d).bpt.offers = s.bpt.offers := by
  have law' : Listed d := by
    refine ⟨fun o => ?_, fun none => ?_⟩
    · rw [h.bpt.1, h.currentOffers readout]
      exact law.1 o
    · rw [h.currentOffers readout] at none
      rw [h.bpt.2, law.2 none]
  exact (close_offers_same law' h.announced).trans h.bpt.1

/-- Values that stand are not posted anew by the close. -/
theorem close_postQueue (h : Decoded s d) (posted : PostedLaw s) : (close s d).csu.postQueue = s.csu.postQueue := by
  refine (postQueue_close_standing fun x hx => postingStands_of_same (h.words x hx) fun v hv => ?_).trans h.queue
  rw [h.queue] at hv
  exact (posted x hx v hv).trans (h.words x hx).symm

end Decoded

/-! ## A write that the waiting rule does not hold -/

/-- The memory cycle of a write with the count at 32 that is not held for the readout read offered (R31). -/
theorem present_unheld (bus : BusOpen s) (count : s.bpt.waitCount = 32)
    (decode : decodeAccess ⟨true, addr, data, check, e⟩ s = (.forwarded, d)) (h : Decoded s d) {o : Offer}
    (front : (close s d).bpt.offers.head? = some o) (readout : o.cls = .readout) (word : offeredReadout d = some addr) :
    ∃ t, present ⟨true, addr, data, check, e⟩ s = t ∧ t.mem = memDrive s.mem ⟨true, addr, data, check, e⟩ ∧
      t.disp = d.disp ∧ t.rts = d.rts ∧ (PostedLaw s → t.csu.postQueue = s.csu.postQueue) ∧ t.bpt.waitCount = 32 := by
  have offered : o ∈ currentOffers (close s d) := ((close_listed s d).1 o).mp (List.mem_of_mem_head? front)
  have full : (close s d).bpt.waitCount = 32 := close_waitCount_full (h.bpt.2.trans count) offered
  have alone : waitingRule ⟨true, addr, data, check, e⟩ (close s d) = none := by
    unfold waitingRule
    rw [if_pos full, front, Option.map_some, readout, offeredReadout_close, word]
    simp
  have step := close_granted (b := close s d) ⟨true, addr, data, check, e⟩ (close_listed s d) (announced_self _ _)
  obtain ⟨-, rts, -, disp, -, -, -, -, -, -, -⟩ := unreported_fields
    (step.view.trans (driveAccess_view _ (close_unreported s d)))
  refine ⟨_, present_granted bus decode (congrArg _ h.rc |>.trans bus.2.2) alone, ?_, disp, rts, fun posted => ?_, ?_⟩
  · rw [mem_of_unreported (step.view.trans (driveAccess_view _ (close_unreported s d))), ← h.mem]
    rfl
  · exact (close_granted_postQueue _ (close_posted s d) fun _ _ => rfl).trans (h.close_postQueue posted)
  · rw [step.waitCount, if_neg (List.ne_nil_of_mem offered), full]
    rfl

/-! ## The word a readout reads next -/

/-- The place of a word of a RECORD window, by its distance from the base (R12). -/
theorem placeOf_record {t : Vector Window 8} {n : Nat} (h : placeOf t n = .record k w i p) :
    i = (n - w.base) / w.size ∧ p = (n - w.base) % w.size := by
  unfold placeOf at h
  split at h
  · cases h
  · split at h
    · cases h
    · cases h
      exact ⟨rfl, rfl⟩
    · cases h

/-- A readout that reads K next has read no word (R61). -/
theorem words_nil_of_stateWord {t : Vector Window 8} (table : TableLaw t) {ro : Readout} (item : ro.item = .record k i)
    (inside : i < w.count) (place : placeOf t addr.toNat = .record k w i w.stateWord)
    (next : readoutAddr t ro = some addr) : ro.words = [] := by
  have window := recordAt_place place
  have legal : (Window.record w).legal := by
    have h := table.legal k
    have hk : t[k] = .record w := by
      unfold recordAt at window
      split at window <;> cases window
      assumption
    exact hk ▸ h
  obtain ⟨size, -, -, -, state, -, -, room⟩ := legal
  cases words : ro.words with
  | nil => rfl
  | cons v l =>
    exfalso
    rw [readoutAddr, item] at next
    simp only [window] at next
    rw [words, readOrder, List.length_cons, List.getElem?_cons_succ] at next
    obtain ⟨j, member, located⟩ := Option.map_eq_some_iff.mp next
    have listed := List.mem_of_getElem? member
    simp only [List.mem_filter, List.mem_range, decide_eq_true_eq] at listed
    obtain ⟨below, other⟩ := listed
    have within : w.base + i * w.size + j < 2 ^ 19 := by
      have rows : (i + 1) * w.size ≤ w.count * w.size := Nat.mul_le_mul_right _ inside
      have room' : w.base + w.count * w.size ≤ 524160 := by rw [Nat.mul_comm]; exact room
      have row : (i + 1) * w.size = i * w.size + w.size := Nat.succ_mul i w.size
      omega
    have value : addr.toNat = w.base + i * w.size + j := by
      rw [← located, RecordWindow.wordAddr, BitVec.toNat_ofNat, Nat.mod_eq_of_lt within]
    have position := (placeOf_record place).2
    rw [value, Nat.add_assoc, Nat.add_sub_cancel_left, Nat.mul_comm, Nat.mul_add_mod, Nat.mod_eq_of_lt below] at position
    exact other position.symm

end Sys2Proof.Machine
end

section
open Sys2Proof Sys2Proof.Machine
/-! The waiting rule over every command: the writes it does not hold, the count that a granted access gains, and the offers
that a step leaves (R22, R30, R31). -/

namespace Sys2Proof.Machine

variable {b s t d : State} {k : Slot} {w : RecordWindow} {i p : Nat} {addr : Addr} {data : DWord} {check e : Byte}
  {q : SeqNo} {n m : Nat} {os : List Offer}

/-! ## A write of the very word that a readout reads -/

/-- The decode of a write leaves a readout read of the very word the front request. -/
structure ReadsOn (addr : Addr) (s d : State) : Prop where
  decoded : Decoded s d
  front   : ∃ o, (close s d).bpt.offers.head? = some o ∧ o.cls = .readout
  word    : offeredReadout d = some addr

/-- A decode that leaves the readout class's request and its word. -/
theorem readsOn_same (law : Listed s) (offers : s.bpt.offers = .readout q n m :: os)
    (word : offeredReadout s = some addr) (h : Decoded s d) (same : readoutOffer d.disp = readoutOffer s.disp)
    (next : offeredReadout d = offeredReadout s) : ReadsOn addr s d := by
  refine ⟨h, ⟨.readout q n m, ?_, rfl⟩, next.trans word⟩
  rw [h.close_offers same law, offers]
  rfl

/-- A decode after which the readout class alone offers. -/
theorem readsOn_alone {o : Offer} (h : Decoded s d) (current : currentOffers d = [o]) (readout : o.cls = .readout)
    (word : offeredReadout d = some addr) : ReadsOn addr s d := by
  have current' : currentOffers (close s d) = [o] := (currentOffers_close h.announced).trans current
  exact ⟨h, ⟨o, close_front_alone current', readout⟩, word⟩

theorem readoutAddr_begunAgain (t : Vector Window 8) {ro : Readout} (h : ro.words = []) :
    readoutAddr t ro.begunAgain = readoutAddr t ro := by
  unfold readoutAddr
  rw [h]
  rfl

/-- Where a readout request waits alone the other classes offer nothing. -/
theorem others_none {o : Offer} (law : Listed s) (offers : s.bpt.offers = [o]) (readout : o.cls = .readout) :
    applyOffer s = [] ∧ statusOffer s = [] := by
  have only (y : Offer) (hy : y ∈ currentOffers s) : y.cls = .readout := by
    have mine := (law.1 y).mpr hy
    rw [offers, List.mem_singleton] at mine
    rw [mine, readout]
  exact ⟨classOffer_nil (k := .apply) only nofun, classOffer_nil (k := .status) only nofun⟩

/-- A capture that restarts a readout leaves the read of the very word at the front, where it restarts another than the one
that is reading, or the one that is to read K and waits alone. -/
theorem readsOn_restarted {x : InFlight} {r : Fin 4} {ro : Readout} (law : Listed s)
    (offers : s.bpt.offers = .readout q n m :: os) (word : offeredReadout s = some addr) (h : Decoded s d)
    (restart : Restarted k i s.disp d.disp x r ro) (place : placeOf s.windows addr.toNat = .record k w i p)
    (may : 3 ≤ n ∨ (p = w.stateWord ∧ os = [] ∧ ReadoutLaw s ∧ TableLaw s.windows)) : ReadsOn addr s d := by
  have mine : Offer.readout q n m ∈ readoutOffer s.disp :=
    mem_currentOffers.mp ((law.1 _).mp (offers ▸ List.mem_cons_self))
  obtain ⟨y, ro', reads, held, -, restarts, -⟩ := readoutOffer_mem mine
  have reads' := restart.readingEntry.trans reads
  by_cases slot : y.readout = some r
  · have same : ro' = ro := Option.some.inj (held.symm.trans (restart.held slot))
    subst same
    rcases may with most | ⟨rfl, rfl, readouts, table⟩
    · exact absurd restart.below (by omega)
    · obtain ⟨z, hz, -, item, w', window, inside⟩ := restart.item ▸ readouts.named x restart.entry r restart.slot
      have same : z = ro' := Option.some.inj (hz.symm.trans restart.readout)
      subst same
      have same : w' = w := Option.some.inj (window.symm.trans (recordAt_place place))
      subst same
      have next : readoutAddr s.windows z = some addr := (offeredReadout_some reads held).symm.trans word
      have unread := words_nil_of_stateWord table item inside place next
      have again : readoutOf d.disp y = some z.begunAgain := by rw [restart.readoutOf, if_pos slot]
      obtain ⟨apply, status⟩ := others_none law offers rfl
      refine readsOn_alone h (o := .readout y.seq z.begunAgain.restarts z.begunAgain.words.length) ?_ rfl ?_
      · rw [currentOffers_eq, applyOffer_congr h.windows (congrArg _ h.rc) h.apply, apply,
          statusOffer_congr h.postedWords, status, readoutOffer_some reads' again]
        rfl
      · rw [offeredReadout_some reads' again, h.windows, readoutAddr_begunAgain _ unread]
        exact next
  · have kept : readoutOf d.disp y = some ro' := by rw [restart.readoutOf, if_neg slot, held]
    refine readsOn_same law offers word h ?_ ?_
    · rw [readoutOffer_some reads' kept, readoutOffer_some reads held]
    · rw [offeredReadout_some reads' kept, offeredReadout_some reads held, h.windows]

/-- The decode of a write into a RECORD window that the waiting rule does not hold for a readout read of its word. -/
theorem record_readsOn (law : Listed s) (ha : addr.toNat < Config.statusBase) (capt : captures s.rc = true)
    (offers : s.bpt.offers = .readout q n m :: os) (word : offeredReadout s = some addr)
    (place : placeOf s.windows addr.toNat = .record k w i p)
    (may : w.isVolatile p = true ∨ e = 0 ∨ 3 ≤ n ∨
      (p = w.stateWord ∧ os = [] ∧ ReadoutLaw s ∧ TableLaw s.windows)) :
    ∃ d, decodeAccess ⟨true, addr, data, check, e⟩ s = (.forwarded, d) ∧ ReadsOn addr s d := by
  rw [decodeAccess_record ha place]
  by_cases none : e = 0
  · exact ⟨s, recordWrite_plain w i p (captures_not_suppresses capt) (.inr none),
      readsOn_same law offers word (.refl s) rfl rfl⟩
  · refine ⟨_, recordWrite_captured w i p capt none, ?_⟩
    have decoded := Decoded.capture k w i p s
    rcases capture_cases k w i p s with same | ⟨structural, x, r, ro, restart⟩
    · exact readsOn_same law offers word decoded (by rw [same]) (offeredReadout_congr decoded.windows same)
    · refine readsOn_restarted law offers word decoded restart place ?_
      rcases may with volatile | zero | may
      · rw [volatile] at structural
        cases structural
      · exact absurd zero none
      · exact may

/-- The decode of a write into a JOURNAL window with room. -/
theorem journal_readsOn {v : JournalWindow} {f : Nat} (law : Listed s) (ha : addr.toNat < Config.statusBase)
    (capt : captures s.rc = true) (offers : s.bpt.offers = .readout q n m :: os) (word : offeredReadout s = some addr)
    (place : placeOf s.windows addr.toNat = .journal k v f) (room : s.journals.queue.length < 128) :
    ∃ d, decodeAccess ⟨true, addr, data, check, e⟩ s = (.forwarded, d) ∧ ReadsOn addr s d ∧ d.disp = s.disp := by
  rw [decodeAccess_journal ha place]
  by_cases queued : e ≠ 0 ∧ queuesWrites s.journals.states[k] = true
  · exact ⟨_, journalWrite_queued capt queued.1 queued.2 room,
      readsOn_same law offers word (.appendEntry _ s) rfl rfl, rfl⟩
  · refine ⟨s, journalWrite_plain (captures_not_suppresses capt) (.inr ?_),
      readsOn_same law offers word (.refl s) rfl rfl, rfl⟩
    by_cases none : e = 0
    · exact .inl none
    · exact .inr (Bool.eq_false_iff.mpr fun waits => queued ⟨none, waits⟩)

/-! ## The count below 32 -/

/-- An access granted on a free bus adds 1 to the count while a request waits (R31). -/
theorem present_counts {a : Access} (free : BusFree s) (decode : decodeAccess a s = (.forwarded, d)) (h : Decoded s d)
    (same : currentOffers d = [] ↔ currentOffers s = []) :
    (present a s).bpt.waitCount = if currentOffers s = [] then 0 else s.bpt.waitCount + 1 := by
  obtain ⟨bus, below⟩ := free
  have count : (close s d).bpt.waitCount = if currentOffers s = [] then 0 else s.bpt.waitCount := by
    rw [close_waitCount, currentOffers_close h.announced, h.bpt.2]
    exact if_congr same rfl rfl
  have less : (close s d).bpt.waitCount < 32 := close_waitCount_lt s d (h.bpt.2 ▸ below)
  have step := close_granted (b := close s d) a (close_listed s d) (announced_self _ _)
  rw [present_granted bus decode ((congrArg _ h.rc).trans bus.2.2) (waitingRule_below a less), step.waitCount,
    currentOffers_close h.announced, count, if_congr same rfl rfl]
  split
  · rfl
  · omega

/-- A suppressed access adds nothing (R31). -/
theorem present_suppressed_count {a : Access} (bus : BusOpen s)
    (decode : decodeAccess a s = (.suppressed, countSuppressed s)) :
    (present a s).bpt.waitCount = if currentOffers s = [] then 0 else s.bpt.waitCount := by
  have h := Decoded.countSuppressed s
  rw [present_suppressed bus decode, close_waitCount, currentOffers_close h.announced, h.currentOffers rfl]
  rfl

/-- A capture leaves some request offered exactly where one was. -/
theorem currentOffers_capture (k : Slot) (w : RecordWindow) (i p : Nat) (s : State) :
    currentOffers (capture k w i p s) = [] ↔ currentOffers s = [] := by
  have decoded := Decoded.capture k w i p s
  rcases capture_cases k w i p s with same | ⟨-, x, r, ro, restart⟩
  · rw [decoded.currentOffers (by rw [same])]
  · rw [currentOffers_eq, currentOffers_eq, applyOffer_congr decoded.windows (congrArg _ decoded.rc) decoded.apply,
      statusOffer_congr decoded.postedWords]
    simp only [List.append_eq_nil_iff, readoutOffer_restarted restart]

/-- The decode of a window read that no entry of the apply queue covers. -/
theorem decodeAccess_uncovered (ha : addr.toNat < Config.statusBase) (bare : covered s addr = false) :
    decodeAccess ⟨false, addr, 0, 0, 0⟩ s = (.forwarded, s) := by
  by_cases outside : placeOf s.windows addr.toNat = .outside
  · refine decodeAccess_ordinary (.inl ?_)
    rw [regionOf, if_neg (not_control ha), if_neg (Nat.not_le.2 ha), outside]
  · rw [decodeAccess_read ha outside, if_neg (by simp [bare])]

/-- A write into a RECORD window that is not suppressed. -/
theorem record_counts (free : BusFree s) (ha : addr.toNat < Config.statusBase)
    (place : placeOf s.windows addr.toNat = .record k w i p) (drive : suppresses s.rc = false) :
    (present ⟨true, addr, data, check, e⟩ s).bpt.waitCount =
      if currentOffers s = [] then 0 else s.bpt.waitCount + 1 := by
  have decode := decodeAccess_record (data := data) (check := check) (e := e) ha place
  by_cases capt : captures s.rc = true ∧ e ≠ 0
  · exact present_counts free (decode.trans (recordWrite_captured w i p capt.1 capt.2)) (.capture k w i p s)
      (currentOffers_capture k w i p s)
  · refine present_counts free (decode.trans (recordWrite_plain w i p drive ?_)) (.refl s) .rfl
    rcases Classical.not_and_iff_not_or_not.mp capt with h | h
    · exact .inl (Bool.eq_false_iff.mpr h)
    · exact .inr (not_not.mp h)

/-! ## Every command -/

/-- Every command keeps the list of the offered requests (R30, R31). -/
theorem Ends.offersLaw (h : Ends s t) (law : OffersLaw s) : OffersLaw t := by
  cases h with
  | closed h => exact close_offersLaw _ _ (h.once law.1)
  | @held b u x h => exact offersLaw_holding x (close_offersLaw b u (h.once law.1))
  | installed =>
    obtain ⟨-, -, once⟩ := completeProlonged_keeps s
    exact close_offersLaw _ _ (once law.1)
  | stands => exact law
  | powered u c q n l => exact (powerOn_basicLaws u c q (m := []) n l rfl).2

/-- A slot of a class's own sets the count to 0 (R31). -/
theorem portSlot_count {c : PortClass} (runs : s.rc.bclkQuiet = none) (own : nextClass s = some c) :
    (close s (portSlot c s)).bpt.waitCount = 0 := by
  rw [portSlot_running runs own]
  exact close_waitCount_zero (grantPart_waitCount c s)

/-- The offers and the count after the close of a step that leaves both (R31). -/
theorem close_settles (offers : t.bpt.offers = s.bpt.offers) (count : t.bpt.waitCount = s.bpt.waitCount) :
    (close b t).bpt.offers = (s.bpt.offers.filter fun o => decide (o ∈ currentOffers (close b t))) ++
        (currentOffers (close b t)).filter (fun o => decide (o ∉ s.bpt.offers)) ∧
      (close b t).bpt.waitCount = if currentOffers (close b t) = [] then 0 else s.bpt.waitCount := by
  rw [close_offers, close_waitCount, offers, count]
  exact ⟨rfl, rfl⟩

theorem ticked_bpt (s : State) : (ticked s).bpt = s.bpt := by
  obtain ⟨q, l, h⟩ := ticked_spec s
  rw [h]
  rfl

/-! ## The clauses of the obligation -/

/-- A status posting alone is served before an ordinary write. -/
theorem status_alone_served {a : Access} {x : Posting} {rest : List Posting} (bus : BusOpen s)
    (count : s.bpt.waitCount = 32) (ordinary : regionOf s.windows a.addr = .ordinary) (write : a.write = true)
    (queue : s.csu.postQueue = x :: rest) (alone : currentOffers s = [.status x.word])
    (plain : x.word ≠ 2 ∨ s.csu.resultHold = none) (posted : PostedLaw s) (room : RoomLaw s) :
    (present a s).mem = memDrive (memWrite s.mem (BitVec.ofNat 19 (524160 + x.word)) (codedWord x.value)) a ∧
      (present a s).csu.postQueue = rest ∧ (present a s).bpt.waitCount = if rest = [] then 0 else 1 := by
  have decode := decodeAccess_ordinary (.inl ordinary)
  have current : currentOffers (close s s) = [.status x.word] := (currentOffers_close_self s).trans alone
  have front : (close s s).bpt.offers.head? = some (.status x.word) := close_front_alone current
  have only (y : Offer) (hy : y ∈ currentOffers s) : y.cls = .status := by
    rw [alone, List.mem_singleton] at hy
    rw [hy]
    rfl
  obtain ⟨-, left, view⟩ := status_served bus decode count front queue plain posted room
  rw [if_pos write] at view
  have step := present_front bus decode count front nofun
  refine ⟨mem_of_unreported view, left, ?_⟩
  obtain ⟨windows, -, -, disp, -, apply, -, rc, -, -, -⟩ := unreported_fields view
  have status : statusOffer (present a s) = [] ↔ rest = [] := by
    rw [statusOffer, postedWords, left, Option.toList_eq_nil_iff, Option.map_eq_none_iff, List.head?_eq_none_iff,
      List.map_eq_nil_iff]
  have apply : applyOffer (present a s) = [] :=
    (applyOffer_congr (s := s) windows (congrArg RoleController.role rc) apply).trans
      (classOffer_nil (k := .apply) only nofun)
  have readout : readoutOffer (present a s).disp = [] :=
    (congrArg readoutOffer disp).trans (classOffer_nil (k := .readout) only nofun)
  rw [step.count, currentOffers_eq, apply, readout]
  exact if_congr status rfl rfl

/-- A volatile capture of the very word leaves the readout read waiting (R22, R31). -/
theorem volatile_unheld (bus : BusOpen s) (count : s.bpt.waitCount = 32) (capt : captures s.rc = true)
    (ha : addr.toNat < Config.statusBase) (place : placeOf s.windows addr.toNat = .record k w i p)
    (volatile : w.isVolatile p = true) (alone : currentOffers s = [.readout q n m])
    (word : offeredReadout s = some addr) :
    (present ⟨true, addr, data, check, e⟩ s).mem = memDrive s.mem ⟨true, addr, data, check, e⟩ ∧
      (present ⟨true, addr, data, check, e⟩ s).disp = s.disp ∧
      (present ⟨true, addr, data, check, e⟩ s).bpt.waitCount = 32 ∧
      (present ⟨true, addr, data, check, e⟩ s).rts =
        if e = 0 then s.rts
        else setTag (w.tagBase + i) (tagAfter .volatileCapture (tagAt s.rts (w.tagBase + i))) s.rts := by
  have taken {d : State} (decode : decodeAccess ⟨true, addr, data, check, e⟩ s = (.forwarded, d)) (h : Decoded s d)
      (disp : d.disp = s.disp) := by
    have front := close_front_alone ((currentOffers_close h.announced).trans ((h.currentOffers (by rw [disp])).trans alone))
    exact present_unheld bus count decode h front rfl ((offeredReadout_congr h.windows disp).trans word)
  have decode := decodeAccess_record (data := data) (check := check) (e := e) ha place
  by_cases none : e = 0
  · obtain ⟨t, rfl, mem, disp, rts, -, full⟩ :=
      taken (decode.trans (recordWrite_plain w i p (captures_not_suppresses capt) (.inr none))) (.refl s) rfl
    exact ⟨mem, disp, full, rts.trans (if_pos none).symm⟩
  · have event : capture k w i p s = tagEvent .volatileCapture (w.tagBase + i) s := if_pos volatile
    have same : (capture k w i p s).disp = s.disp := by
      rw [event]
      rfl
    obtain ⟨t, rfl, mem, disp, rts, -, full⟩ :=
      taken (decode.trans (recordWrite_captured w i p capt none)) (.capture k w i p s) same
    refine ⟨mem, disp.trans same, full, rts.trans ?_⟩
    rw [event, if_neg none]
    rfl

/-- A write whose decode leaves the readout read of its word at the front is not held for it (R31). -/
theorem readsOn_unheld (bus : BusOpen s) (count : s.bpt.waitCount = 32)
    (decode : decodeAccess ⟨true, addr, data, check, e⟩ s = (.forwarded, d)) (h : ReadsOn addr s d) :
    (present ⟨true, addr, data, check, e⟩ s).mem = memDrive s.mem ⟨true, addr, data, check, e⟩ ∧
      (PostedLaw s → (present ⟨true, addr, data, check, e⟩ s).csu.postQueue = s.csu.postQueue) ∧
      (present ⟨true, addr, data, check, e⟩ s).disp = d.disp ∧
      (present ⟨true, addr, data, check, e⟩ s).bpt.waitCount = 32 := by
  obtain ⟨decoded, ⟨o, front, readout⟩, word⟩ := h
  obtain ⟨t, rfl, mem, disp, -, posts, full⟩ := present_unheld bus count decode decoded front readout word
  exact ⟨mem, posts, disp, full⟩

/-- The accesses that a free bus grants and that leave the requests as they are. -/
theorem plain_counts {a : Access} (free : BusFree s) (decode : decodeAccess a s = (.forwarded, s)) :
    (present a s).bpt.waitCount = if currentOffers s = [] then 0 else s.bpt.waitCount + 1 :=
  present_counts free decode (.refl s) .rfl

theorem control_counts (free : BusFree s) {x : BitVec 6} (event : x ≠ 0 ∧ x ≠ 8 ∧ x ≠ 9 ∧ x ≠ 10) :
    (present (controlAccess x data check e) s).bpt.waitCount =
      if currentOffers s = [] then 0 else s.bpt.waitCount + 1 := by
  obtain ⟨h0, h8, h9, h10⟩ := event
  have other (v : BitVec 6) (h : x ≠ v) : x.toNat ≠ v.toNat := fun hx => h (BitVec.eq_of_toNat_eq hx)
  have merged : controlDecode x.toNat data e s = mergeShadow x.toNat data e s := by
    rw [controlDecode, controlEvent_none ⟨other 0 h0, other 8 h8, other 9 h9, other 10 h10⟩]
    exact ite_self _
  have h := Decoded.mergeShadow x.toNat data e s
  have disp : (mergeShadow x.toNat data e s).disp = s.disp := by rw [mergeShadow_eq]
  refine present_counts free ((decodeAccess_control x data check e s).trans (by rw [merged])) h ?_
  rw [h.currentOffers (by rw [disp])]

end Sys2Proof.Machine

/-- Settles O13: a served class by its own row and its place among the offers, a write that is not held by the request its
decode leaves, and the count by the close. -/
theorem waitingRuleServes : Obligations.WaitingRuleServes := by
  refine ⟨fun a s x rest bus count ordinary write queue alone plain posted room => ?_,
    fun addr data check e s k w i p q n m bus count capt ha place volatile alone word => ?_,
    fun a s o os bus law role count front ordinary other => ?_,
    fun addr data check e s q n m os bus law count capt ha front word => ?_,
    fun c s free law => ?_, fun c s t law step => ?_⟩
  · exact ⟨_, rfl, status_alone_served bus count ordinary write queue alone plain posted room⟩
  · exact ⟨_, rfl, volatile_unheld bus count capt ha place volatile alone word⟩
  · refine ⟨?_, ?_, ?_⟩
    · rintro q n m rfl
      refine ⟨fun merge => served_own bus law role count front nofun ordinary other ?_,
        fun merge => served_own bus law role count front nofun ordinary other ?_⟩
      · exact congrArg (fun u => Host.Outcome.next (close s u)) (if_pos merge)
      · exact congrArg (fun u => Host.Outcome.next (close s u)) (if_neg (by simp [merge]))
    · rintro q n m rfl
      exact served_own bus law role count front nofun ordinary other rfl
    · rintro n x rest rfl queue plain posted room
      have decode := decodeAccess_ordinary (.inl ordinary)
      have first : (close s s).bpt.offers.head? = some (.status n) := by rw [front_closed law front]; rfl
      obtain ⟨word, left, view⟩ := status_served bus decode count first queue plain posted room
      have served := present_front bus decode count first nofun
      exact ⟨_, rfl, word, ⟨others_behind law role front served, served.count⟩, left, view⟩
  · refine ⟨fun k w i p place may => ?_, fun k w f place room => ?_⟩
    · obtain ⟨d, decode, reads⟩ := record_readsOn law.listed ha capt front word place may
      obtain ⟨mem, posts, -, full⟩ := readsOn_unheld (data := data) (check := check) bus count decode reads
      exact ⟨_, rfl, mem, posts, full⟩
    · obtain ⟨d, decode, reads, same⟩ := journal_readsOn law.listed ha capt front word place room
      obtain ⟨mem, posts, disp, full⟩ := readsOn_unheld (data := data) (check := check) bus count decode reads
      exact ⟨_, rfl, mem, posts, disp.trans same, full⟩
  · refine ⟨?_, ?_⟩
    · rintro (⟨a, rfl, ordinary⟩ | ⟨x, data, check, e, rfl, event⟩ | ⟨addr, rfl, ha, bare⟩ |
        ⟨addr, data, check, e, k, w, i, p, rfl, ha, place, drive⟩)
      · exact ⟨_, rfl, plain_counts free (decodeAccess_ordinary (.inl ordinary))⟩
      · exact ⟨_, rfl, control_counts free event⟩
      · exact ⟨_, rfl, plain_counts free (decodeAccess_uncovered ha bare)⟩
      · exact ⟨_, rfl, record_counts free ha place drive⟩
    · rintro ⟨addr, data, check, e, k, w, i, p, rfl, ha, place, drop⟩
      exact ⟨_, rfl, present_suppressed_count free.1
        ((decodeAccess_record ha place).trans (recordWrite_suppressed w i p drop))⟩
  · obtain ⟨u, next, does⟩ := does_exec c s
    have same : u = t := Host.Outcome.next.inj (next.symm.trans step)
    refine ⟨(Ends.of_does (same ▸ does)).offersLaw law, fun runs own => ?_, fun rows => ?_⟩
    · rcases own with ⟨rfl, own, merge⟩ | ⟨rfl, own, merge⟩ | ⟨rfl, own⟩ | ⟨rfl, own⟩ <;>
        obtain rfl := Host.Outcome.next.inj step
      · rw [mergeSlot, if_pos merge]
        exact portSlot_count runs own
      · rw [writeSlot, if_neg (by simp [merge])]
        exact portSlot_count runs own
      · exact portSlot_count runs own
      · exact portSlot_count runs own
    · rcases rows with rfl | rfl | ⟨f, rfl⟩ <;> obtain rfl := Host.Outcome.next.inj step
      · exact close_settles (t := ticked s) (congrArg _ (ticked_bpt s)) (congrArg _ (ticked_bpt s))
      · exact close_settles (congrArg _ (startNext_bpt s)) (congrArg _ (startNext_bpt s))
      · exact close_settles ((Blind.receiveSequenced f).offers s) ((Blind.receiveSequenced f).waitCount s)
end

section
open Sys2Proof Sys2Proof.Machine
/-! The Record Tag Store as a sparse table: what is listed, what is counted, and the table of R37. -/

namespace Sys2Proof.Machine

/-! ## Entries and counts of a sparse table -/

section
variable {α : Type} [DecidableEq α] {d : α} {l : List (Nat × α)}

/-- An entry of a canonical table is what its key reads. -/
theorem sparseGet_of_mem (h : sparseWf d l = true) {e : Nat × α} (he : e ∈ l) : sparseGet d e.1 l = e.2 := by
  induction l with
  | nil => cases he
  | cons x l ih =>
    obtain ⟨k, v⟩ := x
    obtain ⟨-, hk, hl⟩ := (sparseWf_cons d k v l).1 h
    rcases List.mem_cons.1 he with rfl | he
    · simp [sparseGet]
    · have hlt := hk e he
      simp [sparseGet, Nat.ne_of_lt hlt, Nat.not_lt_of_lt hlt, ih hl he]

omit [DecidableEq α] in
/-- A key that reads other than the default is listed with what it reads. -/
theorem mem_of_sparseGet {k : Nat} (hk : sparseGet d k l ≠ d) : (k, sparseGet d k l) ∈ l := by
  induction l with
  | nil => exact absurd rfl hk
  | cons x l ih =>
    obtain ⟨k', v⟩ := x
    simp only [sparseGet] at hk ⊢
    by_cases he : k' = k
    · simp [he]
    · by_cases hlt : k < k'
      · simp [he, hlt] at hk
      · simp only [he, hlt, if_false] at hk ⊢
        exact List.mem_cons_of_mem _ (ih hk)

/-- One write moves the count of the entries with a property that the default lacks by what the written key loses and
gains. -/
theorem filter_sparseSet_length (q : α → Bool) (hd : q d = false) (k : Nat) (v : α) (h : sparseWf d l = true) :
    ((sparseSet d k v l).filter fun e => q e.2).length + (if q (sparseGet d k l) then 1 else 0) =
      (l.filter fun e => q e.2).length + (if q v then 1 else 0) := by
  induction l with
  | nil =>
    by_cases hv : v = d
    · simp [sparseSet, sparseGet, hv, hd]
    · simp only [sparseSet, sparseGet, hv, hd, if_false, List.filter_cons]
      split <;> simp
  | cons x l ih =>
    obtain ⟨k', v'⟩ := x
    obtain ⟨-, hk, hl⟩ := (sparseWf_cons d k' v' l).1 h
    rcases Nat.lt_trichotomy k k' with hlt | rfl | hlt
    · by_cases hv : v = d
      · simp [sparseSet, sparseGet, hlt, Nat.ne_of_gt hlt, hv]
      · simp only [sparseSet, sparseGet, hlt, Nat.ne_of_gt hlt, hv, hd, if_true, if_false, List.filter_cons]
        split <;> simp
    · by_cases hv : v = d
      · simp only [sparseSet, sparseGet, Nat.lt_irrefl, hv, hd, if_true, if_false, List.filter_cons]
        split <;> simp
      · simp only [sparseSet, sparseGet, Nat.lt_irrefl, hv, if_true, if_false, List.filter_cons]
        split <;> split <;> simp_all
    · have ih := ih hl
      simp only [sparseSet, sparseGet, Nat.not_lt_of_lt hlt, Nat.ne_of_gt hlt, Nat.ne_of_lt hlt, if_false,
        List.filter_cons]
      split
      · rw [List.length_cons, List.length_cons]
        omega
      · exact ih

end

/-! ## The tag table -/

/-- Only an acknowledgement touches the covered mark (R42). -/
theorem tagAfter_covered (e : TagEvent) (t : Tag) :
    (tagAfter e t).covered = (t.covered || decide (e = .acknowledgement)) := by
  cases e with
  | syncVisit => by_cases h : t.covered = true <;> simp [tagAfter, h]
  | acknowledgement => exact (Bool.or_true _).symm
  | _ => exact (Bool.or_false _).symm

/-- The count of the tags in a state other than CLEAN follows the tag that is set (R36). -/
theorem tagTotal_setTag {x : TagState} (hx : x ≠ .clean) (n : Nat) (t : Tag) {r : Rts}
    (h : sparseWf (⟨.clean, true⟩ : Tag) r.tags = true) :
    tagTotal x (setTag n t r) + (if (tagAt r n).state = x then 1 else 0) =
      tagTotal x r + (if t.state = x then 1 else 0) := by
  have hd : (fun t : Tag => decide (t.state = x)) ⟨.clean, true⟩ = false := decide_eq_false fun hc => hx hc.symm
  have hc := filter_sparseSet_length (fun t : Tag => decide (t.state = x)) hd n t h
  simp only [decide_eq_true_eq] at hc
  exact hc

/-- The count of the clear covered marks follows the tag that is set (R52). -/
theorem clearCount_setTag (n : Nat) (t : Tag) {r : Rts} (h : sparseWf (⟨.clean, true⟩ : Tag) r.tags = true) :
    clearCount (setTag n t r) + (if (tagAt r n).covered then 0 else 1) = clearCount r + (if t.covered then 0 else 1) := by
  have hc := filter_sparseSet_length (fun t : Tag => !t.covered) rfl n t h
  have flip (b : Bool) : (if b then 0 else 1) = if !b then 1 else 0 := by cases b <;> rfl
  rw [flip, flip]
  exact hc

end Sys2Proof.Machine

/-- Settles O52: the table event by event, and in the store one tag set. -/
theorem tagTable : Obligations.TagTable := by
  refine ⟨fun b e x => ⟨tagAfter_covered e ⟨x, b⟩, ?_⟩, fun e n s h => ⟨tagForm_tagEvent e n h, fun m => ?_, fun x hx => ?_⟩⟩
  · cases e with
    | syncVisit => cases b <;> cases x <;> rfl
    | _ => cases x <;> rfl
  · split
    · next hm => rw [hm, tagAt_tagEvent_same e n h]
    · next hm => exact tagAt_tagEvent_other e h hm
  · exact tagTotal_setTag hx n _ h
end

section
open Sys2Proof Sys2Proof.Machine
/-! The choice of the next item (R50, R57, R58, R60): what each part of it finds, and the whole of it. -/

namespace Sys2Proof.Machine

/-! ## The first of a ranked list -/

/-- In a list whose members stand by rising rank, the first with a property is the one of the lowest rank. -/
theorem find?_ranked {α : Type} (rank : α → Nat) {l : List α} (hl : l.Pairwise fun a b => rank a < rank b)
    (p : α → Bool) (b : α) :
    l.find? p = some b ↔ b ∈ l ∧ p b = true ∧ ∀ a ∈ l, rank a < rank b → p a = false := by
  induction l with
  | nil => simp
  | cons x l ih =>
    obtain ⟨hx, hl⟩ := List.pairwise_cons.1 hl
    by_cases hp : p x = true
    · rw [List.find?_cons_of_pos hp]
      constructor
      · rintro h
        cases h
        refine ⟨List.mem_cons_self, hp, fun a ha hlt => ?_⟩
        rcases List.mem_cons.1 ha with rfl | ha
        · exact absurd hlt (Nat.lt_irrefl _)
        · exact absurd hlt (Nat.lt_asymm (hx a ha))
      · rintro ⟨hb, -, hmin⟩
        rcases List.mem_cons.1 hb with rfl | hb
        · rfl
        · exact absurd (hmin x List.mem_cons_self (hx b hb)) (by simp [hp])
    · rw [List.find?_cons_of_neg hp, ih hl, List.forall_mem_cons]
      constructor
      · rintro ⟨hb, h, hmin⟩
        exact ⟨List.mem_cons_of_mem x hb, h, fun _ => by simpa using hp, hmin⟩
      · rintro ⟨hb, h, -, hmin⟩
        rcases List.mem_cons.1 hb with rfl | hb
        · exact absurd h hp
        · exact ⟨hb, h, hmin⟩

/-! ## Readout slots (R60) -/

theorem mem_readoutSlots (r : Fin 4) : r ∈ ([0, 1, 2, 3] : List (Fin 4)) := by
  revert r
  decide

/-- The free readout slot is the lowest-numbered one (R60). -/
theorem freeReadout_eq_some {d : Dispatcher} {r : Fin 4} :
    freeReadout d = some r ↔ d.readouts[r] = none ∧ ∀ q : Fin 4, q < r → d.readouts[q] ≠ none := by
  rw [freeReadout, find?_ranked Fin.val (by decide)]
  simp only [mem_readoutSlots, true_and, true_implies, Option.isNone_iff_eq_none, ← Bool.not_eq_true]
  rfl

theorem freeReadout_eq_none {d : Dispatcher} : freeReadout d = none ↔ ∀ r : Fin 4, d.readouts[r] ≠ none := by
  rw [freeReadout, List.find?_eq_none]
  simp only [mem_readoutSlots, true_implies, Option.isNone_iff_eq_none]

/-! ## The search of a window (R50) -/

/-- How far behind the pointer a record is searched (R50). -/
def searchRank (pointer count x : Nat) : Nat := (x + count - pointer) % count

theorem mem_searchOrder {p c x : Nat} : x ∈ searchOrder p c ↔ x < c := by
  rw [searchOrder, List.mem_append, Or.comm, ← List.mem_append, List.take_append_drop, List.mem_range]

/-- The search examines the records by rising rank, from the pointer on and wrapping once (R50). -/
theorem searchOrder_ranked {p c : Nat} (hp : p < c) :
    (searchOrder p c).Pairwise fun a b => searchRank p c a < searchRank p c b := by
  have behind {x : Nat} (hx : x ∈ (List.range c).drop p) : p ≤ x ∧ searchRank p c x = x - p := by
    obtain ⟨i, hi, rfl⟩ := List.mem_drop_iff_getElem.1 hx
    rw [List.length_range] at hi
    rw [List.getElem_range, searchRank, show p + i + c - p = i + c by omega, Nat.add_mod_right,
      Nat.mod_eq_of_lt (by omega)]
    omega
  have wrapped {x : Nat} (hx : x ∈ (List.range c).take p) : x < p ∧ searchRank p c x = x + c - p := by
    obtain ⟨i, hi, rfl⟩ := List.mem_take_iff_getElem.1 hx
    rw [List.length_range] at hi
    rw [List.getElem_range, searchRank, Nat.mod_eq_of_lt (by omega)]
    omega
  refine List.pairwise_append.2 ⟨?_, ?_, ?_⟩
  · refine (List.pairwise_lt_range.sublist (List.drop_sublist p _)).imp_of_mem fun ha hb hab => ?_
    rw [(behind ha).2, (behind hb).2]
    have := behind ha
    omega
  · refine (List.pairwise_lt_range.sublist (List.take_sublist p _)).imp_of_mem fun ha hb hab => ?_
    rw [(wrapped ha).2, (wrapped hb).2]
    have := wrapped ha
    omega
  · intro a ha b hb
    rw [(behind ha).2, (wrapped hb).2]
    have := List.mem_range.1 (List.mem_of_mem_drop ha)
    omega

/-- A window without a DIRTY record (R36). -/
def Undirtied (s : State) (v : RecordWindow) : Prop :=
  ∀ x, x < v.count → (tagAt s.rts (v.tagBase + x)).state ≠ .dirty

section
variable {s : State} {k : Slot} {w : RecordWindow}

theorem dirtyEntry_iff {r : Rts} {i : Nat} : dirtyEntry r w i = true ↔ (tagAt r (w.tagBase + i)).state = .dirty :=
  decide_eq_true_iff

theorem dirtyEntry_eq_false {r : Rts} {i : Nat} :
    dirtyEntry r w i = false ↔ (tagAt r (w.tagBase + i)).state ≠ .dirty := decide_eq_false_iff_not

/-- What the search finds is a DIRTY record of the window (R50). -/
theorem dirty_of_searchWindow {i : Nat} (h : searchWindow s k = some i) :
    ∃ w, recordAt s.windows k = some w ∧ i < w.count ∧ (tagAt s.rts (w.tagBase + i)).state = .dirty := by
  unfold searchWindow at h
  split at h
  · next w hw =>
    exact ⟨w, hw, mem_searchOrder.1 (List.mem_of_find?_eq_some h), dirtyEntry_iff.1 (List.find?_some h)⟩
  · cases h

/-- The search finds the DIRTY record of the lowest rank (R50). -/
theorem searchWindow_eq_some (hw : recordAt s.windows k = some w) (hp : s.rts.pointers[k] < w.count) {i : Nat} :
    searchWindow s k = some i ↔ i < w.count ∧ (tagAt s.rts (w.tagBase + i)).state = .dirty ∧
      ∀ x, x < w.count → searchRank s.rts.pointers[k] w.count x < searchRank s.rts.pointers[k] w.count i →
        (tagAt s.rts (w.tagBase + x)).state ≠ .dirty := by
  unfold searchWindow
  simp only [hw]
  rw [find?_ranked _ (searchOrder_ranked hp)]
  simp only [mem_searchOrder, dirtyEntry_iff, dirtyEntry_eq_false]

/-- The search fails exactly where no record is DIRTY (R50). -/
theorem searchWindow_isSome (hw : recordAt s.windows k = some w) :
    (searchWindow s k).isSome = false ↔ Undirtied s w := by
  unfold searchWindow
  simp only [hw, Option.isSome_eq_false_iff, Option.isNone_iff_eq_none, List.find?_eq_none, mem_searchOrder,
    dirtyEntry_iff]
  rfl

/-! ## The turn of a window (R58) -/

/-- The place of slot `k` behind the round-robin pointer of priority `p` (R58). -/
def turnOf (s : State) (p : Fin 4) (k : Slot) : Nat := (k.val + 7 - (s.disp.roundRobin[p]).val) % 8

theorem slotsAfter_ranked (r : Slot) : (slotsAfter r).Pairwise fun a b : Slot => (a.val + 7 - r.val) % 8 < (b.val + 7 - r.val) % 8 := by
  revert r
  decide

theorem mem_slotsAfter (r k : Slot) : k ∈ slotsAfter r := by
  revert r k
  decide

theorem recordReady_iff {p : Fin 4} : recordReady s p k = true ↔
    ∃ w, recordAt s.windows k = some w ∧ w.priority = p ∧ ¬ Undirtied s w := by
  unfold recordReady
  cases hw : recordAt s.windows k with
  | none => simp
  | some w =>
    have found := searchWindow_isSome hw
    rw [← Bool.not_eq_true] at found
    simp only [Bool.and_eq_true, decide_eq_true_eq, Option.some.injEq, exists_eq_left']
    rw [← found, not_not]

/-- The record selected at a priority: that of the first window in turn with a DIRTY record (R58). -/
theorem recordCandidate_eq_some {p : Fin 4} {c : Choice} : recordCandidate s p = some c ↔
    ∃ k i, c = .record k i ∧ recordReady s p k = true ∧ searchWindow s k = some i ∧
      ∀ j, turnOf s p j < turnOf s p k → recordReady s p j = false := by
  unfold recordCandidate
  have first (k : Slot) : (slotsAfter s.disp.roundRobin[p]).find? (recordReady s p) = some k ↔
      recordReady s p k = true ∧ ∀ j, turnOf s p j < turnOf s p k → recordReady s p j = false := by
    rw [find?_ranked _ (slotsAfter_ranked _)]
    simp only [mem_slotsAfter, true_and, true_implies]
    rfl
  constructor
  · intro h
    split at h
    · next k hk =>
      obtain ⟨i, hi, rfl⟩ := Option.map_eq_some_iff.1 h
      obtain ⟨ready, before⟩ := (first k).1 hk
      exact ⟨k, i, rfl, ready, hi, before⟩
    · cases h
  · rintro ⟨k, i, rfl, ready, found, before⟩
    rw [(first k).2 ⟨ready, before⟩]
    simp [found]

/-- No record waits at a priority exactly where its windows have no DIRTY record (R58). -/
theorem recordCandidate_eq_none {p : Fin 4} : recordCandidate s p = none ↔
    ∀ (j : Slot) v, recordAt s.windows j = some v → v.priority = p → Undirtied s v := by
  have none_ready : recordCandidate s p = none ↔ ∀ j, recordReady s p j = false := by
    unfold recordCandidate
    split
    · next k hk =>
      have ready := List.find?_some hk
      obtain ⟨w, hw, -, dirty⟩ := recordReady_iff.1 ready
      rw [← searchWindow_isSome hw, Bool.not_eq_false, Option.isSome_iff_exists] at dirty
      obtain ⟨i, hi⟩ := dirty
      simp only [hi, Option.map_some, reduceCtorEq, false_iff, not_forall, Bool.not_eq_false]
      exact ⟨k, ready⟩
    · next hn => simpa [mem_slotsAfter] using hn
  rw [none_ready]
  refine forall_congr' fun j => ?_
  rw [← Bool.not_eq_true, recordReady_iff]
  push Not
  rfl

/-! ## The head of the Journal Queue (R71) -/

/-- The head of the queue for R58: the entry behind the sent ones. -/
theorem firstUnsent_eq_some {q : List QueuedEntry} {e : JournalEntry} : firstUnsent q = some e ↔
    ∃ before after, q = before ++ ⟨e, false⟩ :: after ∧ ∀ y ∈ before, y.sent = true := by
  rw [firstUnsent, Option.map_eq_some_iff]
  constructor
  · rintro ⟨x, hx, rfl⟩
    obtain ⟨unsent, before, after, rfl, sent⟩ := List.find?_eq_some_iff_append.1 hx
    obtain ⟨e, b⟩ := x
    simp only [Bool.not_eq_true'] at unsent
    exact ⟨before, after, by rw [← unsent], fun y hy => by simpa using sent y hy⟩
  · rintro ⟨before, after, rfl, sent⟩
    exact ⟨⟨e, false⟩, List.find?_eq_some_iff_append.2 ⟨rfl, before, after, rfl, fun y hy => by simp [sent y hy]⟩, rfl⟩

theorem journalCandidate_eq_some {p : Fin 4} {c : Choice} : journalCandidate s p = some c ↔
    ∃ e w, firstUnsent s.journals.queue = some e ∧ journalAt s.windows e.slot = some w ∧ w.priority = p ∧
      c = .journal e := by
  unfold journalCandidate
  constructor
  · intro h
    split at h
    · next e he =>
      split at h
      · next w hw =>
        split at h
        · next hp =>
          cases h
          exact ⟨e, w, he, hw, hp, rfl⟩
        · cases h
      · cases h
    · cases h
  · rintro ⟨e, w, he, hw, hp, rfl⟩
    simp [he, hw, hp]

/-! ## The first candidate (R58) -/

theorem armedControl_eq_none : armedControl s = none ↔
    s.disp.syncBeginArm = false ∧ s.disp.syncDoneArm = false ∧ s.disp.handoverArm = false := by
  unfold armedControl
  cases s.disp.syncBeginArm <;> cases s.disp.syncDoneArm <;> cases s.disp.handoverArm <;> simp

/-- Of four candidates the first is that of the highest priority which has one. -/
theorem or_priorities (f : Fin 4 → Option Choice) (c : Choice) :
    ((f 3).or <| (f 2).or <| (f 1).or <| f 0) = some c ↔ ∃ p, f p = some c ∧ ∀ q, p < q → f q = none := by
  rw [Option.or_eq_some_iff, Option.or_eq_some_iff, Option.or_eq_some_iff]
  constructor
  · rintro (h | ⟨h3, h | ⟨h2, h | ⟨h1, h⟩⟩⟩)
    · exact ⟨3, h, fun q hq => absurd hq (Fin.le_last q).not_gt⟩
    · exact ⟨2, h, fun q hq => by match q with | 3 => exact h3⟩
    · exact ⟨1, h, fun q hq => by match q with | 2 => exact h2 | 3 => exact h3⟩
    · exact ⟨0, h, fun q hq => by match q with | 1 => exact h1 | 2 => exact h2 | 3 => exact h3⟩
  · rintro ⟨p, h, above⟩
    match p with
    | 3 => exact .inl h
    | 2 => exact .inr ⟨above 3 (by decide), .inl h⟩
    | 1 => exact .inr ⟨above 3 (by decide), .inr ⟨above 2 (by decide), .inl h⟩⟩
    | 0 => exact .inr ⟨above 3 (by decide), .inr ⟨above 2 (by decide), .inr ⟨above 1 (by decide), h⟩⟩⟩

theorem firstCandidate_unarmed (h : armedControl s = none) {c : Choice} : firstCandidate s = some c ↔
    ∃ p, priorityCandidate s p = some c ∧ ∀ q, p < q → priorityCandidate s q = none := by
  rw [firstCandidate, h]
  exact or_priorities _ c

/-! ## The item chosen (R57, R58) -/

theorem sendingCondition_iff : sendingCondition s = true ↔
    s.link.state = .up ∧ s.link.view = .paired ∧ s.link.peer.role = .standby ∧
      (s.rc.role = .active ∨ s.rc.role = .handoff) ∧ s.disp.seqClosed = false ∧ s.disp.inFlight.length < 16 := by
  simp only [sendingCondition, mayCopy, Bool.and_eq_true, decide_eq_true_eq, Bool.not_eq_true', and_assoc]
  rfl

theorem chooseItem_eq_some {c : Choice} : chooseItem s = some c ↔
    sendingCondition s = true ∧ firstCandidate s = some c ∧
      (c.needsReadout = true → freeReadout s.disp ≠ none) := by
  unfold chooseItem
  by_cases sends : sendingCondition s = true
  · cases first : firstCandidate s with
    | none => simp
    | some x =>
      simp only [sends, true_and, Option.some.injEq]
      by_cases blocked : (x.needsReadout && (freeReadout s.disp).isNone) = true
      · rw [if_pos blocked]
        simp only [Bool.and_eq_true, Option.isNone_iff_eq_none] at blocked
        exact ⟨nofun, fun ⟨same, free⟩ => absurd blocked.2 (free (same ▸ blocked.1))⟩
      · rw [if_neg blocked]
        simp only [Bool.and_eq_true, Option.isNone_iff_eq_none, not_and] at blocked
        exact ⟨fun h => ⟨Option.some.inj h, Option.some.inj h ▸ blocked⟩, fun h => congrArg some h.1⟩
  · simp [sends]

end

end Sys2Proof.Machine
end

section
open Sys2Proof Sys2Proof.Machine
/-! What the laws of the tags say of the store beside a list of records in flight, and what each event on a tag makes of it
(R35, R40, R52). -/

namespace Sys2Proof.Machine

variable {l m : List Nat} {s t : State}

/-- The laws of the tags, for a store `r` under the windows `t` in a sync phase `p`, where the tags `l` are those of the
records in flight. -/
structure TagsHold (t : Vector Window 8) (r : Rts) (p : SyncPhase) (l : List Nat) : Prop where
  form   : sparseWf (⟨.clean, true⟩ : Tag) r.tags = true
  count  : r.outstanding = if p = .none then 0 else clearCount r
  bases  : BasesLaw t
  inUse  : ∀ n ∈ l, n < totalRecords t
  once   : l.Nodup
  flight : ∀ n, n ∈ l ↔ inFamily (tagAt r n).state = true

/-- The laws of the tags of `s`, where the tags `l` are those of the records in flight. -/
def Tracked (l : List Nat) (s : State) : Prop := TagsHold s.windows s.rts s.pass.phase l

/-- The laws of the tags (R40, R52). -/
def Tagged (s : State) : Prop := Tracked (entryTags s) s

theorem tagged_iff : Tagged s ↔ CoverLaw s ∧ FlightLaw s := by
  constructor
  · intro h
    refine ⟨⟨h.form, h.count⟩, h.form, h.bases, h.inUse, h.once, fun n hn => (h.flight n).1 hn, fun e he hf => ?_⟩
    refine (h.flight e.1).2 ?_
    rw [tagAt, sparseGet_of_mem h.form he]
    exact hf
  · rintro ⟨cover, law⟩
    refine ⟨law.form, cover.2, law.bases, law.inUse, law.once, fun n => ⟨law.flying n, fun hf => ?_⟩⟩
    refine law.listed (n, tagAt s.rts n) (mem_of_sparseGet fun hd => ?_) hf
    rw [tagAt, hd] at hf
    cases hf

/-- The tag of a record of a window is in use (R3). -/
theorem tag_inUse {t : Vector Window 8} (bases : BasesLaw t) {k : Slot} {w : RecordWindow} {i : Nat}
    (hw : recordAt t k = some w) (hi : i < w.count) : w.tagBase + i < totalRecords t := by
  have own : (t[k]).records = w.count := by
    unfold recordAt at hw
    split at hw <;> cases hw
    simp [Window.records, *]
  have below : tagBaseOf t k ≤ otherRecords t k := by
    refine List.Sublist.sum_le_sum (List.Sublist.map _ ?_) fun _ _ => Nat.zero_le _
    exact List.monotone_filter_right _ fun i hi => by
      simp only [decide_eq_true_eq] at hi ⊢
      exact Fin.ne_of_lt hi
  rw [bases k w hw, totalRecords, sumSlots_split _ _ k, own]
  exact Nat.add_lt_add_of_le_of_lt below hi

namespace TagsHold

variable {w : Vector Window 8} {r : Rts} {p : SyncPhase}

theorem perm (h : TagsHold w r p l) (hp : l.Perm m) : TagsHold w r p m :=
  { h with
    inUse := fun n hn => h.inUse n (hp.mem_iff.2 hn)
    once := hp.nodup_iff.1 h.once
    flight := fun n => hp.mem_iff.symm.trans (h.flight n) }

/-- The law does not tell the phases of a sync apart (R52). -/
theorem inPhase {q : SyncPhase} (h : TagsHold w r p l) (hq : q = .none ↔ p = .none) : TagsHold w r q l :=
  { h with count := by simp only [hq, h.count] }

/-- The law reads no pointer (R50). -/
theorem withPointers (v : Vector Nat 8) (h : TagsHold w r p l) : TagsHold w { r with pointers := v } p l :=
  ⟨h.form, h.count, h.bases, h.inUse, h.once, h.flight⟩

/-- Outside a sync no tag has a mark to count (R52, R128). -/
theorem unsynced (h : TagsHold w r p l) : TagsHold w { r with outstanding := 0 } .none l :=
  ⟨h.form, rfl, h.bases, h.inUse, h.once, h.flight⟩

/-- An empty store beside an empty list (R48). -/
theorem empty (bases : BasesLaw w) (v : Vector Nat 8) :
    TagsHold w { tags := [], pointers := v, outstanding := 0 } .none [] :=
  ⟨rfl, rfl, bases, nofun, .nil, fun _ => ⟨nofun, nofun⟩⟩

/-- One tag set to `x`, with U at `u`: U follows the clear marks, and the list the flight family. -/
theorem setTag {n u : Nat} {x : Tag} (h : TagsHold w r p l)
    (hu : u + (if p = .none ∨ (tagAt r n).covered = true then 0 else 1) =
      r.outstanding + (if p = .none ∨ x.covered = true then 0 else 1))
    (inUse : ∀ i ∈ m, i < totalRecords w) (once : m.Nodup)
    (same : ∀ i, i ≠ n → (i ∈ m ↔ i ∈ l)) (own : n ∈ m ↔ inFamily x.state = true) :
    TagsHold w { Machine.setTag n x r with outstanding := u } p m where
  form := setTag_wf r n x h.form
  count := by
    have moved := clearCount_setTag n x h.form
    have count := h.count
    change u = if p = .none then 0 else clearCount (Machine.setTag n x r)
    by_cases none : p = .none
    · simp only [none, true_or, if_true] at hu count ⊢
      omega
    · simp only [none, false_or, if_false] at hu count ⊢
      omega
  bases := h.bases
  inUse := inUse
  once := once
  flight i := by
    have at_i : tagAt { Machine.setTag n x r with outstanding := u } i = tagAt (Machine.setTag n x r) i := rfl
    rw [at_i]
    by_cases hi : i = n
    · rw [hi, tagAt_setTag_same r n x h.form]
      exact own
    · rw [tagAt_setTag_other r n i x h.form hi, same i hi]
      exact h.flight i

end TagsHold

/-! ## One event on one tag (R37) -/

/-- The events that leave the flight family as it is. -/
def TagEvent.staysInFamily (e : TagEvent) : Prop := e ≠ .selection ∧ e ≠ .acknowledgement ∧ e ≠ .goBack

theorem inFamily_tagAfter {e : TagEvent} (he : e.staysInFamily) (t : Tag) :
    inFamily (tagAfter e t).state = inFamily t.state := by
  obtain ⟨x, b⟩ := t
  obtain ⟨h1, h2, h3⟩ := he
  cases e with
  | selection => exact absurd rfl h1
  | acknowledgement => exact absurd rfl h2
  | goBack => exact absurd rfl h3
  | syncVisit => cases b <;> cases x <;> rfl
  | _ => cases x <;> rfl

/-- A record that is acknowledged or goes back has left the flight family (R42, R43). -/
theorem not_inFamily_afterAck (x : TagState) : inFamily (afterAck x) = false := by cases x <;> rfl
theorem not_inFamily_afterGoBack (x : TagState) : inFamily (afterGoBack x) = false := by cases x <;> rfl

namespace Tracked

/-- An event that is no acknowledgement leaves the marks (R42). -/
theorem event {e : TagEvent} {n : Nat} (h : Tracked l s) (he : e ≠ .acknowledgement)
    (inUse : ∀ i ∈ m, i < totalRecords s.windows) (once : m.Nodup) (same : ∀ i, i ≠ n → (i ∈ m ↔ i ∈ l))
    (own : n ∈ m ↔ inFamily (tagAfter e (tagAt s.rts n)).state = true) : Tracked m (tagEvent e n s) :=
  TagsHold.setTag (u := s.rts.outstanding) h (by rw [tagAfter_covered]; simp [he]) inUse once same own

theorem stays {e : TagEvent} {n : Nat} (h : Tracked l s) (he : e.staysInFamily) : Tracked l (tagEvent e n s) :=
  h.event he.2.1 h.inUse h.once (fun _ _ => .rfl) (by rw [inFamily_tagAfter he]; exact h.flight n)

/-- A DIRTY record that is selected joins the records in flight (R40). -/
theorem selected {n : Nat} (h : Tracked l s) (hn : n < totalRecords s.windows) (dirty : (tagAt s.rts n).state = .dirty) :
    Tracked (l ++ [n]) (tagEvent .selection n s) := by
  have fresh : n ∉ l := fun hl => by
    have := (h.flight n).1 hl
    rw [dirty] at this
    cases this
  refine h.event nofun ?_ ?_ (fun i hi => by simp [hi]) ?_
  · simp only [List.mem_append, List.mem_singleton]
    rintro i (hi | rfl)
    · exact h.inUse i hi
    · exact hn
  · exact List.nodup_append_comm.1 (List.nodup_cons.2 ⟨fresh, h.once⟩)
  · simp [tagAfter, afterSelection, dirty, inFamily]

/-- A record that goes back leaves the records in flight (R43). -/
theorem goesBack {n : Nat} (h : Tracked (n :: l) s) : Tracked l (tagEvent .goBack n s) := by
  obtain ⟨fresh, once⟩ := List.nodup_cons.1 h.once
  refine h.event nofun (fun i hi => h.inUse i (List.mem_cons_of_mem n hi)) once (fun i hi => by simp [hi]) ?_
  have left : inFamily (tagAfter .goBack (tagAt s.rts n)).state = false := not_inFamily_afterGoBack _
  simp [fresh, left]

/-- A record that is acknowledged leaves the records in flight, and U falls with its clear mark during a sync (R42, R52,
R53). -/
theorem acked {k : Slot} {i : Nat} {w : RecordWindow} (hw : recordAt s.windows k = some w)
    (h : Tracked ((w.tagBase + i) :: l) s) : Tracked l (recordAcked k i s) := by
  obtain ⟨fresh, once⟩ := List.nodup_cons.1 h.once
  have left : inFamily (tagAfter .acknowledgement (tagAt s.rts (w.tagBase + i))).state = false :=
    not_inFamily_afterAck _
  have moved (u : Nat) (hu : u + (if s.pass.phase = .none ∨ (tagAt s.rts (w.tagBase + i)).covered = true then 0 else 1) =
      s.rts.outstanding) := TagsHold.setTag (m := l) (x := tagAfter .acknowledgement (tagAt s.rts (w.tagBase + i))) h
    (by rw [hu]; simp [tagAfter]) (fun j hj => h.inUse j (List.mem_cons_of_mem _ hj)) once
    (fun j hj => by simp [hj]) (by simp [fresh, left])
  unfold recordAcked
  simp only [hw]
  by_cases due : (!(tagAt s.rts (w.tagBase + i)).covered && decide (s.pass.phase ≠ .none)) = true
  · rw [if_pos due]
    simp only [Bool.and_eq_true, Bool.not_eq_true', decide_eq_true_eq] at due
    have counted : 0 < clearCount s.rts := by
      have listed : (w.tagBase + i, tagAt s.rts (w.tagBase + i)) ∈ s.rts.tags := mem_of_sparseGet fun hd => by
        have clear := due.1
        rw [tagAt, hd] at clear
        cases clear
      exact List.length_pos_of_mem (List.mem_filter.2 ⟨listed, by simp [due.1]⟩)
    refine moved (s.rts.outstanding - 1) ?_
    have count := h.count
    rw [if_neg due.2] at count
    simp only [due.1, due.2, Bool.false_eq_true, or_self, if_false]
    omega
  · rw [if_neg due]
    refine moved s.rts.outstanding ?_
    rw [if_pos]
    · rfl
    · simp only [Bool.and_eq_true, Bool.not_eq_true', decide_eq_true_eq] at due
      by_contra hn
      push Not at hn
      exact due ⟨by simpa using hn.2, hn.1⟩

/-- The records of a list of entries go back, one after another (R43, R69). -/
theorem recordsGoneBack (es : List InFlight) (h : Tracked (es.filterMap (entryTag s.windows) ++ l) s) :
    Tracked l (recordsGoneBack es s) := by
  induction es generalizing s with
  | nil => exact h
  | cons e es ih =>
    rw [recordsGoneBack_cons, entryBack_eq]
    cases tag : entryTag s.windows e with
    | none =>
      rw [List.filterMap_cons_none tag] at h
      exact ih h
    | some n =>
      rw [List.filterMap_cons_some tag] at h
      exact ih (s := tagEvent .goBack n s) h.goesBack

end Tracked

/-! ## Every tag at once -/

/-- A table whose values alone are changed, none of them to the default, stays canonical. -/
theorem sparseWf_map {α : Type} [DecidableEq α] {d : α} (f : α → α) (hf : ∀ v, v ≠ d → f v ≠ d) {x : List (Nat × α)}
    (h : sparseWf d x = true) : sparseWf d (x.map fun e => (e.1, f e.2)) = true := by
  induction x with
  | nil => rfl
  | cons e x ih =>
    obtain ⟨k, v⟩ := e
    obtain ⟨hv, hk, hx⟩ := (sparseWf_cons d k v x).1 h
    refine (sparseWf_cons ..).2 ⟨hf v hv, fun e' he => ?_, ih hx⟩
    obtain ⟨y, hy, rfl⟩ := List.mem_map.1 he
    exact hk y hy

theorem sparseGet_map {α : Type} (d : α) (f : α → α) (hd : f d = d) (n : Nat) (x : List (Nat × α)) :
    sparseGet d n (x.map fun e => (e.1, f e.2)) = f (sparseGet d n x) := by
  induction x with
  | nil => exact hd.symm
  | cons e x ih =>
    simp only [List.map_cons, sparseGet, ih, apply_ite f, hd]

/-- The handoff sweep in the store: the refresh visit of every tag (R49). -/
theorem tagAt_handoffSweep (s : State) (n : Nat) :
    tagAt (handoffSweep s).rts n = tagAfter .refreshVisit (tagAt s.rts n) :=
  sparseGet_map _ (tagAfter .refreshVisit) rfl n s.rts.tags

/-- The handoff sweep leaves the marks and the flight family (R49). -/
theorem Tracked.handoffSweep (h : Tracked l s) : Tracked l (handoffSweep s) where
  form := by
    refine sparseWf_map (tagAfter .refreshVisit) (fun v hv he => hv ?_) h.form
    obtain ⟨x, b⟩ := v
    cases x with
    | clean => exact he
    | _ => cases congrArg Tag.state he
  count := by
    have marks : clearCount (Machine.handoffSweep s).rts = clearCount s.rts := by
      unfold clearCount Machine.handoffSweep
      rw [State.onRts_rts, List.filter_map, List.length_map]
      rfl
    rw [marks]
    exact h.count
  bases := h.bases
  inUse := h.inUse
  once := h.once
  flight n := by
    rw [tagAt_handoffSweep, inFamily_tagAfter (e := .refreshVisit) ⟨nofun, nofun, nofun⟩]
    exact h.flight n

/-- A table that lists a run of keys in order, with no default among their values. -/
theorem sparseGet_range {α : Type} [DecidableEq α] {d : α} (f : Nat → α) (hf : ∀ i, f i ≠ d) (a c : Nat) :
    sparseWf d ((List.range' a c).map fun i => (i, f i)) = true ∧
      ∀ n, sparseGet d n ((List.range' a c).map fun i => (i, f i)) = if a ≤ n ∧ n < a + c then f n else d := by
  induction c generalizing a with
  | zero => exact ⟨rfl, fun n => by simp [sparseGet]⟩
  | succ c ih =>
    obtain ⟨form, reads⟩ := ih (a + 1)
    rw [List.range'_succ, List.map_cons]
    refine ⟨(sparseWf_cons ..).2 ⟨hf a, fun e he => ?_, form⟩, fun n => ?_⟩
    · obtain ⟨i, hi, rfl⟩ := List.mem_map.1 he
      have := (List.mem_range'_1.1 hi).1
      exact this
    · simp only [sparseGet, reads]
      by_cases ha : a = n
      · simp [ha]
      · by_cases hn : n < a
        · simp only [ha, hn, if_true, if_false]
          rw [if_neg (by omega)]
        · simp only [ha, hn, if_false]
          exact if_congr (by omega) rfl rfl

/-- A tag after the start of a full sync: its mark is clear if it is in use (R51). -/
theorem tagAt_clearMarks (s : State) (n : Nat) : tagAt (clearMarks s).rts n =
    if n < totalRecords s.windows then { tagAt s.rts n with covered := false } else ⟨.clean, true⟩ := by
  have reads := (sparseGet_range (d := (⟨.clean, true⟩ : Tag)) (fun i => { tagAt s.rts i with covered := false })
    (fun i => by simp) 0 (totalRecords s.windows)).2 n
  rw [← List.range_eq_range'] at reads
  simp only [Nat.zero_le, true_and, Nat.zero_add] at reads
  exact reads

/-- The start of a full sync: every mark of a tag in use is clear, and U counts them (R51, R120). -/
theorem Tracked.clearMarks (h : Tracked l s) {p : SyncPhase} (hp : p ≠ .none) :
    TagsHold s.windows (clearMarks s).rts p l where
  form := by
    have form := (sparseGet_range (d := (⟨.clean, true⟩ : Tag)) (fun i => { tagAt s.rts i with covered := false })
      (fun i => by simp) 0 (totalRecords s.windows)).1
    rw [← List.range_eq_range'] at form
    exact form
  count := by
    have all : clearCount (Machine.clearMarks s).rts = totalRecords s.windows := by
      unfold clearCount Machine.clearMarks
      rw [State.onRts_rts, List.filter_eq_self.2 (by simp)]
      simp
    rw [if_neg hp, all]
    rfl
  bases := h.bases
  inUse := h.inUse
  once := h.once
  flight n := by
    rw [tagAt_clearMarks, h.flight n]
    by_cases hn : n < totalRecords s.windows
    · rw [if_pos hn]
    · rw [if_neg hn]
      exact ⟨fun hf => absurd (h.inUse n ((h.flight n).2 hf)) hn, nofun⟩

end Sys2Proof.Machine
end

section
open Sys2Proof Sys2Proof.Machine
/-! Every effect of the part keeps the laws of the tags (R35, R40, R52). An effect that leaves the windows, the store, the
sync phase and the items in flight keeps them as they stand, by definition, and has no lemma here unless it branches. -/

namespace Sys2Proof.Machine

/-! ## The records in flight -/

/-- The tag of the record that an item sends, if it sends one. -/
def itemTag (t : Vector Window 8) : Item → Option Nat
  | .record k i => (recordAt t k).map fun w => w.tagBase + i
  | _ => none

/-- The tag of an entry is that of its item. -/
theorem entryTag_eq (t : Vector Window 8) (e : InFlight) : entryTag t e = itemTag t e.item := by
  unfold entryTag itemTag
  cases e.item <;> rfl

/-- A change of entries that leaves their items leaves the records in flight. -/
theorem entryTags_map {f : InFlight → InFlight} (h : ∀ e, (f e).item = e.item) (t : Vector Window 8) (l : List InFlight) :
    (l.map f).filterMap (entryTag t) = l.filterMap (entryTag t) := by
  rw [List.filterMap_map]
  exact congrFun (congrArg _ (funext fun e => by simp only [Function.comp_apply, entryTag_eq, h])) l

/-- A record that is chosen is a DIRTY record of its window (R40, R50). -/
theorem dirty_of_chosen {s : State} {k : Slot} {i : Nat} (h : chooseItem s = some (.record k i)) :
    ∃ w, recordAt s.windows k = some w ∧ i < w.count ∧ (tagAt s.rts (w.tagBase + i)).state = .dirty := by
  obtain ⟨-, first, -⟩ := chooseItem_eq_some.1 h
  cases armed : armedControl s with
  | some c => simp [firstCandidate, armed] at first
  | none =>
    obtain ⟨p, own, -⟩ := (firstCandidate_unarmed armed).1 first
    rcases Option.or_eq_some_iff.1 own with journal | ⟨-, record⟩
    · obtain ⟨_, _, -, -, -, e⟩ := journalCandidate_eq_some.1 journal
      cases e
    · obtain ⟨k', i', e, -, found, -⟩ := recordCandidate_eq_some.1 record
      cases e
      exact dirty_of_searchWindow found

theorem clearArm_inFlight (c : ControlItem) (d : Dispatcher) : (clearArm c d).inFlight = d.inFlight := by cases c <;> rfl

theorem awaitedStarted_phase (c : ControlItem) (q : SeqNo) (p : PassEngine) : (awaitedStarted c q p).phase = p.phase := by
  unfold awaitedStarted
  split
  · split <;> rfl
  · rfl

theorem restartSync_windows (s : State) : (restartSync s).windows = s.windows := by
  simp [restartSync, copyInStep, clearMarks]

theorem restartSync_rts (s : State) : (restartSync s).rts = (clearMarks s).rts := by simp [restartSync, copyInStep]

namespace Tagged

variable {s t : State}

theorem ite {c : Prop} [Decidable c] (h : c → Tagged s) (h' : ¬ c → Tagged t) : Tagged (if c then s else t) := by
  split
  · exact h ‹_›
  · exact h' ‹_›

/-- The laws read the windows, the store, the sync phase and the in-flight list alone. -/
theorem of_store {r : Rts} {p : SyncPhase} (h : TagsHold s.windows r p (entryTags s)) (windows : t.windows = s.windows)
    (rts : t.rts = r) (phase : t.pass.phase = p) (inFlight : t.disp.inFlight = s.disp.inFlight) : Tagged t := by
  unfold Tagged Tracked entryTags
  rw [windows, rts, phase, inFlight]
  exact h

theorem of_same (h : Tagged s) (windows : t.windows = s.windows) (rts : t.rts = s.rts) (phase : t.pass.phase = s.pass.phase)
    (inFlight : t.disp.inFlight = s.disp.inFlight) : Tagged t := of_store h windows rts phase inFlight

theorem onBpt {f : Bpt → Bpt} (h : Tagged s) : Tagged (s.onBpt f) := h
theorem onJournals {f : Journals → Journals} (h : Tagged s) : Tagged (s.onJournals f) := h
theorem onLink {f : Link → Link} (h : Tagged s) : Tagged (s.onLink f) := h
theorem onApply {f : ApplyEngine → ApplyEngine} (h : Tagged s) : Tagged (s.onApply f) := h
theorem onCsu {f : Csu → Csu} (h : Tagged s) : Tagged (s.onCsu f) := h
theorem onMem {f : Memory → Memory} (h : Tagged s) : Tagged (s.onMem f) := h
theorem onRc {f : RoleController → RoleController} (h : Tagged s) : Tagged (s.onRc f) := h
theorem onPass {f : PassEngine → PassEngine} (h : Tagged s) (hf : ∀ p, (f p).phase = p.phase) :
    Tagged (s.onPass f) := h.of_same rfl rfl (hf _) rfl

theorem onDisp {f : Dispatcher → Dispatcher} (h : Tagged s) (hf : ∀ d, (f d).inFlight = d.inFlight) :
    Tagged (s.onDisp f) := h.of_same rfl rfl rfl (hf _)

theorem raise {n : Notice} (h : Tagged s) : Tagged (raise n s) := h
theorem reportDiscard {m : DiscardMarker} {k : Slot} {i : Nat} (h : Tagged s) : Tagged (reportDiscard m k i s) := h
theorem intakeResult {c : Byte} (h : Tagged s) : Tagged (intakeResult c s) := h
theorem completeWith {c : Byte} {r : ResultCode} {n : Nat} (h : Tagged s) : Tagged (completeWith c r n s) := h

theorem setRole {r : Role} (h : Tagged s) : Tagged (setRole r s) := h.of_same rfl rfl rfl rfl

theorem bases (h : Tagged s) : BasesLaw s.windows := TagsHold.bases h

/-- With nothing in flight, no tag but a clean one and no sync, U is 0 (R48, R128). -/
theorem cleared (bases : BasesLaw s.windows) (hr : s.rts.tags = []) (hu : s.rts.outstanding = 0) (hp : s.pass.phase = .none)
    (hi : s.disp.inFlight = []) : Tagged s where
  form := by rw [hr]; rfl
  count := by rw [if_pos hp, hu]
  bases := bases
  inUse := by rw [entryTags, hi]; exact nofun
  once := by rw [entryTags, hi]; exact .nil
  flight n := by
    rw [entryTags, hi, tagAt, hr]
    exact ⟨nofun, nofun⟩

/-! ### Tags, passes and the Dispatcher -/

theorem recordEvent {e : TagEvent} {k : Slot} {i : Nat} (h : Tagged s) (he : e.staysInFamily) :
    Tagged (recordEvent e k i s) := by
  unfold Machine.recordEvent
  split
  · exact Tracked.stays h he
  · exact h

theorem handoffSweep (h : Tagged s) : Tagged (handoffSweep s) := Tracked.handoffSweep h

theorem enterDesync {k : Slot} (h : Tagged s) : Tagged (enterDesync k s) := ite (fun _ => h) fun _ => h

theorem joinInFlight {i : Item} {r : Option (Fin 4)} (h : Tracked (entryTags s ++ (itemTag s.windows i).toList) s) :
    Tagged (joinInFlight i r s) := by
  have tags : entryTags (Machine.joinInFlight i r s) = entryTags s ++ (itemTag s.windows i).toList := by
    show List.filterMap (entryTag s.windows) (s.disp.inFlight ++ [⟨s.link.nextSeq, i, none, false, r⟩]) = _
    rw [List.filterMap_append, List.filterMap_cons, entryTag_eq]
    cases itemTag s.windows i <;> rfl
  unfold Tagged
  rw [tags]
  exact h

/-- An item that is no record joins no record. -/
theorem joinUntagged {i : Item} {r : Option (Fin 4)} (h : Tagged s) (hi : itemTag s.windows i = none) :
    Tagged (Machine.joinInFlight i r s) := by
  refine joinInFlight ?_
  rw [hi, Option.toList_none, List.append_nil]
  exact h

/-- The start of a chosen item: a record joins the records in flight as its tag joins the flight family (R40, R59). -/
theorem startItem {c : Choice} (h : Tagged s) (hc : chooseItem s = some c) : Tagged (startItem c s) := by
  unfold Machine.startItem
  split
  · next i => exact joinUntagged (h.of_same rfl rfl (awaitedStarted_phase ..) (clearArm_inFlight ..)) rfl
  · split
    · exact joinUntagged h rfl
    · split
      · exact joinUntagged (s := occupy _ _ s) h rfl
      · exact h
  · next k i =>
    obtain ⟨w, hw, hi, dirty⟩ := dirty_of_chosen hc
    split
    · next r v hr hv =>
      cases hv.symm.trans hw
      refine joinInFlight ?_
      have tag : itemTag s.windows (.record k i) = some (w.tagBase + i) := by simp [itemTag, hw]
      show TagsHold s.windows _ s.pass.phase (entryTags s ++ (itemTag s.windows (.record k i)).toList)
      rw [tag]
      exact (Tracked.selected h (tag_inUse h.bases hw hi) dirty).withPointers _
    · exact h

theorem startNext (h : Tagged s) : Tagged (startNext s) := by
  unfold Machine.startNext
  split
  · next c hc => exact h.startItem hc
  · exact h

theorem countCorrected {c : ReadClass} (h : Tagged s) : Tagged (countCorrected c s) := ite (fun _ => h) fun _ => h

/-- A change of entries that leaves their items keeps the laws. -/
theorem onEntries {f : InFlight → InFlight} {d : Dispatcher} (h : Tagged s) (hf : ∀ e, (f e).item = e.item)
    (hd : d.inFlight = s.disp.inFlight.map f) : Tagged { s with disp := d } := by
  unfold Tagged Tracked entryTags
  rw [hd, entryTags_map hf]
  exact h

theorem onEntry_item {q : SeqNo} {f : InFlight → InFlight} (hf : ∀ e, (f e).item = e.item) (e : InFlight) :
    (if e.seq = q then f e else e).item = e.item := by
  split
  · exact hf e
  · rfl

theorem takeWord {e : InFlight} {r : Fin 4} {ro : Readout} {c : ReadClass} {d : DWord} (h : Tagged s) :
    Tagged (takeWord e r ro c d s) := by
  unfold Machine.takeWord
  split
  · split
    · exact h
    · next w _ =>
      have form : ∀ x : InFlight, { x with form := formReached w.size (ro.words ++ [(d, c)]) }.item = x.item := fun _ => rfl
      exact ite (fun _ => h.onEntries (onEntry_item form) rfl) fun _ => h.onEntries (onEntry_item form) rfl
  · exact ite (fun _ => h) fun _ => h

theorem readoutWord (h : Tagged s) : Tagged (readoutWord s) := by
  unfold Machine.readoutWord
  split
  · exact h
  · split
    · split
      · exact h
      · exact h.countCorrected.takeWord
    · exact h

theorem restartReadout {k : Slot} {i : Nat} (h : Tagged s) : Tagged (restartReadout k i s) := by
  unfold Machine.restartReadout
  split
  · exact h
  · split
    · exact ite (fun _ => recordEvent (s := s.onDisp _) h ⟨nofun, nofun, nofun⟩) fun _ => h
    · exact h

theorem capture {k : Slot} {w : RecordWindow} {i j : Nat} (h : Tagged s) : Tagged (capture k w i j s) :=
  ite (fun _ => Tracked.stays h ⟨nofun, nofun, nofun⟩) fun _ =>
    restartReadout (s := tagEvent .structuralCapture (w.tagBase + i) s) (Tracked.stays h ⟨nofun, nofun, nofun⟩)

theorem markTransmitted {e : InFlight} (h : Tagged s) : Tagged (s.onDisp (markTransmitted e)) := by
  have item (x : InFlight) : { x with transmitted := true, readout := none }.item = x.item := rfl
  unfold Machine.markTransmitted
  split <;> exact h.onEntries (onEntry_item (q := e.seq) item) rfl

/-! ### Reports and the close of a step -/

theorem postCounts (h : Tagged s) (ws : List Nat) : Tagged (postCounts ws s) := by
  induction ws generalizing s with
  | nil => exact h
  | cons w ws ih => exact ih (ite (fun _ => h) fun _ => h)

theorem close {u : State} (h : Tagged s) : Tagged (close u s) := by
  obtain ⟨q, o, n, e⟩ := close_spec u s
  rw [e]
  exact h

theorem endSwitchover {r : ResultCode} (h : Tagged s) : Tagged (endSwitchover r s) := ite (fun _ => h) fun _ => h

/-! ### Emptyings and passes -/

theorem clearReplication (h : BasesLaw s.windows) : Tagged (clearReplication s) := by
  obtain ⟨v, p, e, -⟩ := clearReplication_spec s
  rw [e]
  exact cleared h rfl rfl rfl rfl

theorem settleSeen (h : Tagged s) : Tagged (settleSeen s) := ite (fun _ => h) fun _ => h

theorem freeRead {b : State} (h : Tagged s) : Tagged (freeRead b s) := by
  obtain ⟨x, e, -⟩ := freeRead_spec b s
  rw [e]
  exact h

theorem emptyApply (h : Tagged s) : Tagged (emptyApply s) := by
  obtain ⟨x, b, e, -⟩ := emptyApply_spec s
  rw [e]
  exact h

/-- The end of the sequence stream with the passes stopped: the records in flight have gone back, and nothing is in flight
(R43, R69, R128). -/
theorem streamEnded (h : Tagged s) : Tagged (stopRefresh (abortSync (emptyGoingBack s))) := by
  have back : Tracked [] (recordsGoneBack s.disp.inFlight s) :=
    Tracked.recordsGoneBack (l := []) s.disp.inFlight (by rw [List.append_nil]; exact h)
  obtain ⟨x, v, p, e, -⟩ := streamEnded_spec s
  have tags := tags_streamEnded s
  have windows : (recordsGoneBack s.disp.inFlight s).windows = s.windows := by
    obtain ⟨y, e, -⟩ := recordsGoneBack_spec s.disp.inFlight s
    rw [e]
  rw [e] at tags ⊢
  have ended := back.unsynced
  rw [windows] at ended
  exact ⟨by rw [tags]; exact ended.form, rfl, ended.bases, ended.inUse, ended.once, fun n => by
    rw [tagAt_congr tags]; exact ended.flight n⟩

theorem restartSync (h : Tagged s) : Tagged (restartSync s) :=
  of_store (p := .passing) (Tracked.clearMarks h (by decide)) (restartSync_windows s) (restartSync_rts s) rfl rfl

theorem resyncNow (h : Tagged s) : Tagged (resyncNow s) := by
  unfold Machine.resyncNow
  split
  · exact onDisp h.restartSync fun _ => rfl
  · exact restartSync (ite (fun _ => h) fun _ => onDisp h fun _ => rfl)
  · exact restartSync (onDisp (ite (fun _ => h) fun _ => onDisp h fun _ => rfl) fun _ => rfl)

theorem finishSync (h : Tagged s) : Tagged (finishSync s) := by
  refine ite (fun hc => ?_) fun _ => h
  simp only [syncComplete, Bool.and_eq_true, decide_eq_true_eq] at hc
  exact TagsHold.inPhase h ⟨nofun, fun none => nomatch hc.1.1.symm.trans none⟩

theorem syncDoneAcked {q : SeqNo} (h : Tagged s) : Tagged (syncDoneAcked q s) :=
  ite (fun _ => TagsHold.unsynced h) fun _ => h

theorem visitSync (h : Tagged s) : Tagged (visitSync s) :=
  ite (fun _ => Tracked.stays (e := .syncVisit) h ⟨nofun, nofun, nofun⟩) fun _ => h

theorem visitRefresh (h : Tagged s) : Tagged (visitRefresh s) := by
  refine ite (fun _ => ?_) fun _ => h
  unfold refreshStep
  refine onPass ?_ fun _ => rfl
  split
  · exact h.recordEvent ⟨nofun, nofun, nofun⟩
  · exact h

theorem passEnd (h : Tagged s) : Tagged (passEnd s) := ite (fun _ => h) fun _ => h

theorem decideIfPaired (h : Tagged s) : Tagged (decideIfPaired s) := by
  refine ite (fun _ => ?_) fun _ => h
  unfold pairingDecision
  split
  · exact onPass h fun _ => rfl
  · exact onPass (onDisp h.restartSync fun _ => rfl) fun _ => rfl

/-! ### Changes of role -/

theorem promote (h : Tagged s) : Tagged (promote s) := (clearReplication h.onRc.setRole.bases).decideIfPaired

theorem promoteIfDrained (h : Tagged s) : Tagged (promoteIfDrained s) :=
  ite (fun _ => h.promote) fun _ => h

theorem takeOverNow (h : Tagged s) : Tagged (takeOverNow s) := h.setRole.promoteIfDrained

theorem judgeLost (h : Tagged s) : Tagged (judgeLost s) := ite (fun _ => h.takeOverNow) fun _ => h

theorem judgeTakeover {b : State} (h : Tagged s) : Tagged (judgeTakeover b s) :=
  ite (fun _ => ite (fun _ => h.judgeLost.takeOverNow) fun _ => h.judgeLost) fun _ => h.judgeLost

/-- A fall clears the replication (R138). -/
theorem retire {r : Role} (h : Tagged s) :
    Tagged (Machine.emptyApply (Machine.clearReplication (Machine.setRole r (leaveHandoff s)))) :=
  emptyApply (clearReplication (s := Machine.setRole r (leaveHandoff s)) h.bases)

theorem demote {x : SyncState} (h : Tagged s) : Tagged (demote x s) := onRc h.retire

theorem handoffSucceeds (h : Tagged s) : Tagged (handoffSucceeds s) := endSwitchover h.onRc.demote

theorem handoffReturns {r : ResultCode} (h : Tagged s) : Tagged (handoffReturns r s) := endSwitchover h.onRc.setRole

theorem judgeConverged (h : Tagged s) : Tagged (judgeConverged s) := ite (fun _ => h) fun _ => h

theorem dualClaimDetected (h : Tagged s) : Tagged (dualClaimDetected s) :=
  ite (fun _ => endSwitchover (onRc h.raise.demote)) fun _ => h.raise

theorem enterReleased (h : Tagged s) : Tagged (enterReleased s) := endSwitchover (onRc h.retire)

theorem releaseIfHeld (h : Tagged s) : Tagged (releaseIfHeld s) := ite (fun _ => h.enterReleased) fun _ => h

theorem peerRoleChanged {old : Role} (h : Tagged s) : Tagged (peerRoleChanged old s) :=
  ite (fun _ => h.handoffSucceeds) fun _ =>
    ite (fun _ => ite (fun _ => h.streamEnded.handoffReturns) fun _ => h.streamEnded) fun _ =>
      ite (fun _ => h.decideIfPaired) fun _ => ite (fun _ => h.handoffReturns) fun _ => h

theorem updatePeer {r : PeerRecord} (h : Tagged s) : Tagged (updatePeer r s) := by
  have entered : Tagged (if s.rc.role = .standby then adoptEpoch (s.onLink fun l => { l with peer := r })
      else s.onLink fun l => { l with peer := r }) := ite (fun _ => h) fun _ => h
  exact ite (fun _ => entered.peerRoleChanged) fun _ => entered

end Tagged
end Sys2Proof.Machine
end

section
open Sys2Proof Sys2Proof.Machine
/-! The link, the acknowledgements and go-backs, the entries applied, the memory port, the commands and the events keep the
laws of the tags. -/

namespace Sys2Proof.Machine

/-! ## What an entry that leaves the in-flight list takes along -/

/-- An entry that leaves gives up its readout slot, and nothing else of the Dispatcher changes (R60). -/
theorem abandonReadout_spec (e : InFlight) (d : Dispatcher) : ∃ x, abandonReadout e d = { d with readouts := x } := by
  unfold abandonReadout
  split
  · exact ⟨_, rfl⟩
  · exact ⟨d.readouts, rfl⟩

/-- The entry sends SYNC_BEGIN, SYNC_DONE or HANDOVER. -/
def InFlight.sendsSyncBegin (e : InFlight) : Bool := decide (e.item = .control .syncBegin)

def InFlight.sendsSyncDone (e : InFlight) : Bool :=
  match e.item with
  | .control (.syncDone _) => true
  | _ => false

def InFlight.sendsHandover (e : InFlight) : Bool :=
  match e.item with
  | .control (.handover _) => true
  | _ => false

/-- The go-back of one entry: its record's tag, its readout slot, its arm, and the awaited SYNC_DONE (R43, R60, R67). -/
theorem entryGoneBack_spec (e : InFlight) (s : State) :
    ∃ x a, entryGoneBack e s =
      { s with
        rts := (entryBack e s).rts
        disp :=
          { s.disp with
            readouts := x
            syncBeginArm := s.disp.syncBeginArm || e.sendsSyncBegin
            syncDoneArm := s.disp.syncDoneArm || e.sendsSyncDone
            handoverArm := s.disp.handoverArm || e.sendsHandover }
        pass := { s.pass with awaited := a } } := by
  obtain ⟨x, abandoned⟩ := abandonReadout_spec e s.disp
  have awaited : ∃ a, awaitedGoneBack e.seq s.pass = { s.pass with awaited := a } := by
    unfold awaitedGoneBack
    split
    · exact ⟨_, rfl⟩
    · exact ⟨s.pass.awaited, rfl⟩
  obtain ⟨a, awaited⟩ := awaited
  cases hi : e.item with
  | record k i =>
    refine ⟨x, s.pass.awaited, ?_⟩
    simp only [entryGoneBack, entryBack, InFlight.sendsSyncBegin, InFlight.sendsSyncDone, InFlight.sendsHandover, hi,
      recordEvent, State.onDisp, abandoned]
    cases recordAt s.windows k <;> simp [tagEvent_spec]
  | journal j =>
    refine ⟨x, s.pass.awaited, ?_⟩
    simp [entryGoneBack, entryBack, InFlight.sendsSyncBegin, InFlight.sendsSyncDone, InFlight.sendsHandover, hi,
      State.onDisp, abandoned]
  | control c =>
    refine ⟨x, a, ?_⟩
    cases c <;>
      simp [entryGoneBack, entryBack, InFlight.sendsSyncBegin, InFlight.sendsSyncDone, InFlight.sendsHandover, hi,
        State.onDisp, State.onPass, abandoned, awaited, setArm]

/-- The records that go back move the store by the store and the windows alone. -/
theorem recordsGoneBack_congr (l : List InFlight) {s t : State} (windows : t.windows = s.windows) (rts : t.rts = s.rts) :
    (recordsGoneBack l t).rts = (recordsGoneBack l s).rts := by
  induction l generalizing s t with
  | nil => exact rts
  | cons e l ih =>
    rw [recordsGoneBack_cons, recordsGoneBack_cons]
    have back : (entryBack e t).windows = (entryBack e s).windows ∧ (entryBack e t).rts = (entryBack e s).rts := by
      rw [entryBack_eq, entryBack_eq, windows]
      cases entryTag s.windows e with
      | none => exact ⟨windows, rts⟩
      | some n => exact ⟨windows, by simp only [tagEvent_spec, rts]⟩
    exact ih back.1 back.2

/-- Everything the go-back of a list of entries changes (R43, R60, R67). -/
theorem entriesGoneBack_spec (l : List InFlight) (s : State) :
    ∃ x a, entriesGoneBack l s =
      { s with
        rts := (recordsGoneBack l s).rts
        disp :=
          { s.disp with
            readouts := x
            syncBeginArm := s.disp.syncBeginArm || l.any InFlight.sendsSyncBegin
            syncDoneArm := s.disp.syncDoneArm || l.any InFlight.sendsSyncDone
            handoverArm := s.disp.handoverArm || l.any InFlight.sendsHandover }
        pass := { s.pass with awaited := a } } := by
  induction l generalizing s with
  | nil => exact ⟨s.disp.readouts, s.pass.awaited, by simp [entriesGoneBack, recordsGoneBack]⟩
  | cons e l ih =>
    obtain ⟨x, a, first⟩ := entryGoneBack_spec e s
    obtain ⟨y, b, rest⟩ := ih (entryGoneBack e s)
    refine ⟨y, b, ?_⟩
    have windows : (entryBack e s).windows = s.windows := by
      rw [entryBack_eq]
      split <;> rfl
    have store : (recordsGoneBack l (entryGoneBack e s)).rts = (recordsGoneBack (e :: l) s).rts := by
      rw [recordsGoneBack_cons]
      exact recordsGoneBack_congr l (by rw [first, windows]) (by rw [first])
    rw [entriesGoneBack, rest, store]
    simp only [first, List.any_cons, Bool.or_assoc]

namespace Tagged

variable {s t : State}

/-! ### The departure from UP, and the link -/

theorem toTrain {v : PeerView} (h : Tagged s) : Tagged (toTrain v s) := by
  have dropped : Tagged (dropLink v s) := h
  have left : Tagged (leaveUp v s) :=
    ite (fun _ => dropped.demote.endSwitchover) fun _ =>
      ite (fun _ => dropped.streamEnded.handoffReturns) fun _ => dropped.streamEnded
  exact ite (fun _ => left) fun _ => h

theorem loseAlignment (h : Tagged s) : Tagged (loseAlignment s) := by
  unfold Machine.loseAlignment
  split
  · exact h
  · exact h
  · exact h.toTrain

theorem retrain (h : Tagged s) : Tagged (retrain s) := ite (fun _ => h.toTrain) fun _ => h

theorem tryUp (h : Tagged s) : Tagged (tryUp s) := ite (fun _ => decideIfPaired h) fun _ => h

theorem judgeHelloClaim {x : HelloFrame} (h : Tagged s) : Tagged (judgeHelloClaim x s) :=
  ite (fun _ => h.dualClaimDetected) fun _ => h

theorem helloInHello {x : HelloFrame} (h : Tagged s) : Tagged (helloInHello x s) :=
  ite (fun _ => (judgeHelloClaim (s := State.onLink _ _) h.updatePeer).settleSeen.tryUp) fun _ =>
    judgeHelloClaim (s := goIncompatible s) h

theorem takeHello {x : HelloFrame} (h : Tagged s) : Tagged (takeHello x s) := by
  have counted : Tagged (countFrame s) := h
  unfold Machine.takeHello
  split
  · exact helloInHello (s := enterHello (countFrame s)) counted
  · exact counted.helloInHello
  · exact counted.updatePeer.judgeHelloClaim
  · exact counted

theorem meetGap (h : Tagged s) : Tagged (meetGap s) := ite (fun _ => h) fun _ => h

theorem judgeSequenced {f : SeqFrame} (h : Tagged s) : Tagged (judgeSequenced f s) :=
  ite (fun _ => ite (fun _ => h) fun _ => meetGap (s := s.onLink _) h) fun _ =>
    ite (fun _ => h) fun _ => ite (fun _ => h.meetGap) fun _ => h

theorem receiveByte {k : ByteKind} (h : Tagged s) : Tagged (receiveByte k s) := by
  unfold Machine.receiveByte
  split
  · exact h
  · refine ite (fun _ => ?_) fun _ => ite (fun _ => h) fun _ => h
    split
    · exact h
    · exact ite (fun _ => h.loseAlignment) fun _ => h
    · exact h
  · split
    · exact h.loseAlignment
    · exact ite (fun _ => h.loseAlignment) fun _ => h
    · exact h

/-! ### Acknowledgements and go-backs -/

/-- The acknowledgement of an entry: its record leaves the records in flight (R42, R66). -/
theorem entryAcked {e : InFlight} (h : Tracked ((itemTag s.windows e.item).toList ++ entryTags s) s) :
    Tagged (entryAcked e s) := by
  have alone {i : Item} (hi : e.item = i) (none : itemTag s.windows i = none) : Tagged s := by
    rw [hi, none] at h
    exact h
  unfold Machine.entryAcked
  split
  · next k i hi =>
    rw [hi, itemTag] at h
    cases hw : recordAt s.windows k with
    | none =>
      rw [hw] at h
      simp only [Machine.recordAcked, hw]
      exact h
    | some w =>
      rw [hw] at h
      have tags : entryTags (recordAcked k i s) = entryTags s := by
        unfold recordAcked
        simp only [hw]
        split <;> rfl
      unfold Tagged
      rw [tags]
      exact Tracked.acked hw h
  · next hi => exact alone hi rfl
  · next hi => exact ite (fun _ => ite (fun _ => alone hi rfl) fun _ => alone hi rfl) fun _ => alone hi rfl
  · next hi => exact alone hi rfl
  · next hi => exact (alone hi rfl).syncDoneAcked
  · next hi => exact ite (fun _ => (alone hi rfl).handoffSucceeds) fun _ => alone hi rfl

theorem acknowledge (h : Tagged s) (n : Nat) : Tagged (acknowledge n s) := by
  induction n generalizing s with
  | zero => exact h
  | succ n ih =>
    unfold Machine.acknowledge
    split
    · exact h
    · next e rest hd =>
      refine ih (entryAcked ?_)
      obtain ⟨x, left⟩ := abandonReadout_spec e { s.disp with inFlight := rest }
      have tags : entryTags s = (itemTag s.windows e.item).toList ++ rest.filterMap (entryTag s.windows) := by
        rw [entryTags, hd, List.filterMap_cons, entryTag_eq]
        cases itemTag s.windows e.item <;> rfl
      simp only [State.onDisp, left]
      have held : Tracked (entryTags s) s := h
      rw [tags] at held
      exact held

theorem resolveApplied {a : SeqNo} (h : Tagged s) : Tagged (resolveApplied a s) :=
  ite (fun _ => judgeConverged (s := restartAckTimer _) (h.acknowledge _)) fun _ =>
    ite (fun _ => h) fun _ => ite (fun _ => h) fun _ => h

/-- A go-back: the records of the entries that leave have gone back (R43, R67). -/
theorem goBackFrom {q : SeqNo} (h : Tagged s) : Tagged (goBackFrom q s) := by
  refine ite (fun _ => ?_) fun _ => h
  generalize seqAhead (oldestSeq s) q = n
  have parted : ((s.disp.inFlight.drop n).filterMap (entryTag s.windows) ++
      (s.disp.inFlight.take n).filterMap (entryTag s.windows)).Perm (entryTags s) := by
    refine List.perm_append_comm.trans ?_
    rw [← List.filterMap_append, List.take_append_drop]
    exact .refl _
  have kept : Tracked ((s.disp.inFlight.drop n).filterMap (entryTag s.windows) ++
      (s.disp.inFlight.take n).filterMap (entryTag s.windows))
      (s.onDisp fun d => { d with inFlight := d.inFlight.take n }) := TagsHold.perm h parted.symm
  have back := Tracked.recordsGoneBack _ kept
  obtain ⟨y, store, -⟩ := recordsGoneBack_spec (s.disp.inFlight.drop n)
    (s.onDisp fun d => { d with inFlight := d.inFlight.take n })
  obtain ⟨x, a, gone⟩ := entriesGoneBack_spec (s.disp.inFlight.drop n)
    (s.onDisp fun d => { d with inFlight := d.inFlight.take n })
  obtain ⟨c, m, cut, -⟩ := cutSending_spec (s.disp.inFlight.drop n) (remarkSent (entriesGoneBack (s.disp.inFlight.drop n)
    (s.onDisp fun d => { d with inFlight := d.inFlight.take n })))
  simp only [cut]
  rw [gone]
  rw [store] at back ⊢
  exact back

end Tagged
end Sys2Proof.Machine
end

section
open Sys2Proof Sys2Proof.Machine
/-! The receiver, the entries applied, the memory port, the commands, the session bus and the events keep the laws of the
tags, and so does a step (R35, R40, R52). -/

namespace Sys2Proof.Machine

variable {s t : State}

namespace Tagged

/-! ### The receiver and the transmitter -/

theorem takeHeartbeat {x : HeartbeatFrame} {y : Bool} (h : Tagged s) : Tagged (takeHeartbeat x y s) :=
  ite (fun _ => ite (fun _ => h.resolveApplied.updatePeer.judgeTakeover) fun _ =>
    h.updatePeer.judgeTakeover.resolveApplied) fun _ => h

theorem boundaryPassed (h : Tagged s) : Tagged (boundaryPassed s) := by
  refine ite (fun _ => ite (fun _ => judgeLost ?_) fun _ => h.onLink) fun _ => h
  exact ite (fun _ => h.onLink.raise.toTrain) fun _ => h.onLink.raise.onLink

theorem transmitNext (h : Tagged s) : Tagged (transmitNext s) := by
  refine ite (fun _ => h.onLink.onLink) fun _ => ite (fun _ => h.onLink.onApply.onLink) fun _ =>
    ite (fun _ => h.onLink.onLink) fun _ => ite (fun _ => h.onLink.onLink) fun _ => ?_
  split
  · exact ite (fun _ => h.markTransmitted.onLink) fun _ => h
  · exact h

theorem frameBoundary (h : Tagged s) : Tagged (frameBoundary s) :=
  ite (fun _ => h.onLink.transmitNext) fun _ => h

/-! ### The entries applied -/

theorem completionEffects {x : SeqBody} {m : Option (DWord × ReadClass)} (h : Tagged s) :
    Tagged (completionEffects x m s) := by
  cases x with
  | record => exact h
  | tombstone => exact h
  | discard => exact h.reportDiscard
  | journalWord =>
    show Tagged (completeWord ..)
    unfold completeWord
    split
    · exact h.onApply.reportDiscard
    · exact h.onApply
  | journalBlock => exact ite (fun _ => h.raise) fun _ => h
  | syncBegin => exact h.onRc
  | syncDone => exact raise (onRc (onPass h fun _ => rfl))
  | handover => exact ite (fun _ => h.onLink.onRc.setRole) fun _ => h.onLink

theorem completeHead {f : SeqFrame} {rest : List SeqFrame} (h : Tagged s) : Tagged (completeHead f rest s) := by
  have completed : Tagged (Machine.completionEffects f.body s.apply.merged (Machine.freeRead s (s.onApply fun a =>
      { a with queue := rest, written := 0, merged := none, applied := f.seq + 1 }))) :=
    h.onApply.freeRead.completionEffects
  exact settleSeen (ite (fun _ => completed.onLink) fun _ => completed)

theorem completeImmediate (h : Tagged s) (l : List SeqFrame) : Tagged (completeImmediate l s) := by
  induction l generalizing s with
  | nil => exact h
  | cons f l ih => exact ite (fun _ => ih h.completeHead) fun _ => h

theorem settleQueue (h : Tagged s) : Tagged (settleQueue s) :=
  promoteIfDrained (ite (fun _ => h.completeImmediate _) fun _ => h)

theorem applyWrite (h : Tagged s) : Tagged (applyWrite s) := by
  unfold Machine.applyWrite
  split
  · exact ite (fun _ => h.onMem.onApply.completeHead.settleQueue.judgeTakeover) fun _ => h.onMem.onApply
  · exact h

theorem applyRead (h : Tagged s) : Tagged (applyRead s) := by
  unfold Machine.applyRead
  split
  · split
    · exact h.countCorrected.onApply
    · exact h
  · exact h

/-! ### The memory port -/

theorem postingWrite (h : Tagged s) : Tagged (postingWrite s) := by
  unfold Machine.postingWrite
  split
  · exact h
  · refine ite (fun _ => ?_) fun _ => h.onMem.onCsu
    split
    · exact h.onMem.onCsu.onCsu
    · exact h.onMem.onCsu

theorem grantPart {c : PortClass} (h : Tagged s) : Tagged (grantPart c s) := by
  cases c with
  | apply => exact ite (fun _ => h.onBpt.applyRead) fun _ => h.onBpt.applyWrite
  | readout => exact h.onBpt.readoutWord
  | status => exact h.onBpt.postingWrite

theorem portSlot {c : PortClass} (h : Tagged s) : Tagged (portSlot c s) := ite (fun _ => h.grantPart) fun _ => h

theorem driveAccess {a : Access} (h : Tagged s) : Tagged (driveAccess a s) := ite (fun _ => h.onMem) fun _ => h.onBpt

theorem forward {a : Access} (h : Tagged s) : Tagged (forward a s) := by
  refine ite (fun _ => ?_) fun _ => h.onBpt
  unfold grantUpstream
  split
  · exact h.grantPart.close.driveAccess.onBpt
  · exact h.driveAccess.onBpt

/-! ### The commands -/

/-- What STOP leaves has no tag but a clean one, and nothing in flight (R48, R140). -/
theorem commandStop {c : Byte} (h : Tagged s) : Tagged (commandStop c s) := by
  have stopped : Tagged (stopLink s) := ite (fun _ => h.onLink.raise) fun _ => h.onLink
  have emptied : Tagged (Machine.emptyApply (Machine.clearReplication (stopLink s))) :=
    (clearReplication stopped.bases).emptyApply
  have effects : Tagged (stopEffects s) := onDisp (onRc (setRole (onRc emptied))) fun _ => rfl
  exact completeWith (ite (fun _ => h) fun _ => effects)

theorem commandDefine {w1 w2 w3 : DWord} (h : Tagged s) : Tagged (commandDefine w1 w2 w3 s) := by
  unfold Machine.commandDefine
  split
  · exact h.completeWith
  · exact h.onCsu

theorem commandClear {w1 : DWord} (h : Tagged s) : Tagged (commandClear w1 s) := by
  refine ite (fun _ => h.completeWith) fun _ => ?_
  split
  · exact h.completeWith
  · exact h.onCsu

theorem commandTiming {w1 w2 : DWord} (h : Tagged s) : Tagged (commandTiming w1 w2 s) := by
  refine ite (fun _ => h.completeWith) fun _ => ?_
  split
  · exact h.completeWith
  · exact h.onCsu.completeWith

theorem startAs {r : Role} (h : Tagged s) : Tagged (startAs r s) := by
  have entered : Tagged (if r = .active then Machine.setRole .active (s.onRc fun c => { c with epoch := c.epoch + 1 })
      else adoptEpoch ((Machine.setRole .standby s).onRc fun c => { c with sync := .unsynced })) :=
    ite (fun _ => h.onRc.setRole) fun _ => h.setRole.onRc.onRc
  exact (onLink (onLink entered)).onRc.onRc

theorem commandStart {w1 : DWord} (h : Tagged s) : Tagged (commandStart w1 s) := by
  refine ite (fun _ => h.completeWith) fun _ => ?_
  split
  · exact h.completeWith
  · exact h.startAs.completeWith

theorem commandSwitchover {w1 : DWord} (h : Tagged s) : Tagged (commandSwitchover w1 s) :=
  ite (fun _ => h.completeWith) fun _ => ite (fun _ => h.completeWith) fun _ => ite (fun _ => h.completeWith) fun _ =>
    h.setRole.onRc.onCsu.handoffSweep.judgeConverged

theorem commandTakeOver (h : Tagged s) : Tagged (commandTakeOver s) :=
  ite (fun _ => h.completeWith) fun _ => ite (fun _ => h.completeWith) fun _ => h.takeOverNow.completeWith

theorem commandRelease (h : Tagged s) : Tagged (commandRelease s) :=
  ite (fun _ => h.enterReleased.completeWith) fun _ => h.completeWith

theorem commandResume (h : Tagged s) : Tagged (commandResume s) :=
  ite (fun _ => h.completeWith) fun _ => (judgeTakeover (onRc (onRc h.setRole.onRc))).completeWith

theorem commandResync (h : Tagged s) : Tagged (commandResync s) :=
  ite (fun _ => h.completeWith) fun _ => ite (fun _ => h.completeWith) fun _ => h.resyncNow.completeWith

theorem commandQuery {w1 : DWord} (h : Tagged s) : Tagged (commandQuery w1 s) := by
  unfold Machine.commandQuery
  split
  · exact h.completeWith
  · split
    · exact h.completeWith
    · exact ite (fun _ => h.completeWith) fun _ => h.completeWith

theorem runCommand {c : Command} {w1 w2 w3 : DWord} (h : Tagged s) : Tagged (runCommand c w1 w2 w3 s) := by
  cases c with
  | defineWindow => exact h.commandDefine
  | clearWindow => exact h.commandClear
  | setTiming => exact h.commandTiming
  | start => exact h.commandStart
  | stop => exact h.commandStop
  | switchover => exact h.commandSwitchover
  | takeOver => exact h.commandTakeOver
  | release => exact h.commandRelease
  | resume => exact h.commandResume
  | resync => exact h.commandResync
  | queryRecord => exact h.commandQuery

theorem commandTrigger {w0 w1 w2 w3 : DWord} (h : Tagged s) : Tagged (commandTrigger w0 w1 w2 w3 s) := by
  unfold Machine.commandTrigger
  split
  · unfold takeTrigger
    split
    · exact h.intakeResult.runCommand
    · exact h.intakeResult.completeWith
  · exact ite (fun _ => h.completeWith.intakeResult.commandStop) fun _ => h.raise

/-! ### The session bus -/

theorem mergeShadow {i : Nat} {d : DWord} {e : Byte} (h : Tagged s) : Tagged (mergeShadow i d e s) := by
  unfold Machine.mergeShadow
  split
  · exact h.onBpt
  · exact h

theorem controlEvent {i : Nat} (h : Tagged s) : Tagged (controlEvent i s) := by
  unfold Machine.controlEvent
  split
  · exact h.commandTrigger
  · exact ite (fun _ => h) fun _ => h.onRc
  · exact h.onCsu
  · exact h.onCsu
  · exact h

theorem journalWrite {k : Slot} {f : Nat} {a : Access} (h : Tagged s) : Tagged (journalWrite k f a s).2 := by
  unfold Machine.journalWrite
  split
  · exact h.onBpt
  · split
    · split
      · exact h.onJournals
      · exact h
    · exact h

theorem recordWrite {k : Slot} {w : RecordWindow} {i j : Nat} {e : Byte} (h : Tagged s) :
    Tagged (recordWrite k w i j e s).2 := by
  unfold Machine.recordWrite
  split
  · exact h.onBpt
  · split
    · exact h.capture
    · exact h

theorem decodeAccess {a : Access} (h : Tagged s) : Tagged (decodeAccess a s).2 := by
  unfold Machine.decodeAccess
  split
  · exact ite (fun _ => ite (fun _ => h.mergeShadow) fun _ => h.mergeShadow.controlEvent) fun _ => h
  · split
    · exact h.onCsu.raise
    · exact h
  · split
    · exact h.recordWrite
    · split <;> exact h
  · split
    · exact h.journalWrite
    · split <;> exact h
  · exact h

theorem takeAccess {a : Access} (h : Tagged s) : Tagged (takeAccess a s) := by
  simp only [Machine.takeAccess]
  split
  · exact h.decodeAccess.close.forward.close
  · exact h.decodeAccess.close
  · exact h.decodeAccess.close.onBpt

theorem present {a : Access} (h : Tagged s) : Tagged (present a s) :=
  ite (fun _ => h.onBpt.close) fun _ => h.takeAccess

/-! ### The end of a stall -/

theorem stallRoom (h : Tagged s) : Tagged (stallRoom s) := by
  unfold Machine.stallRoom
  split
  · split
    · exact ite (fun _ => (close (onJournals (onBpt h))).forward.close) fun _ => h
    · exact h
  · exact h

theorem stallExpiry (h : Tagged s) : Tagged (stallExpiry s) := by
  unfold Machine.stallExpiry
  split
  · refine ite (fun _ => h) fun _ => close (forward (close ?_))
    split
    · exact h.onBpt.enterDesync
    · exact h.onBpt
  · exact h

theorem resolveStall (h : Tagged s) : Tagged (resolveStall s) := by
  unfold Machine.resolveStall
  split
  · exact ite (fun _ => h.onBpt.onBpt) fun _ => ite (fun _ => h) fun _ => h.onBpt.forward
  · exact h

theorem releaseRead (h : Tagged s) : Tagged (releaseRead s) := by
  unfold Machine.releaseRead
  split
  · exact ite (fun _ => h) fun _ => h.onBpt.forward
  · exact ite (fun _ => h.onBpt.forward) fun _ => h
  · exact h

/-- An event that may end a stall keeps the laws where its effect does. -/
theorem takeEvent {f : State → State} (h : Tagged s) (hf : ∀ {u}, Tagged u → Tagged (f u)) : Tagged (takeEvent f s) :=
  (hf h.stallRoom).close.resolveStall.close

/-! ### Frames as they arrive -/

theorem passFrame (h : Tagged s) : Tagged (passFrame s) := ite (fun _ => h.onLink) fun _ => h

theorem receiveHello {x : HelloFrame} (h : Tagged s) : Tagged (receiveHello x s) :=
  ite (fun _ => h.takeHello.judgeTakeover) fun _ => h.passFrame

theorem receiveHeartbeat {x : HeartbeatFrame} {y : Bool} (h : Tagged s) : Tagged (receiveHeartbeat x y s) :=
  ite (fun _ => h.onLink.takeHeartbeat) fun _ => h.passFrame

theorem receiveAck {a : SeqNo} (h : Tagged s) : Tagged (receiveAck a s) :=
  ite (fun _ => ite (fun _ => h.onLink.resolveApplied) fun _ => h.onLink) fun _ => h.passFrame

theorem receiveNak {q : SeqNo} (h : Tagged s) : Tagged (receiveNak q s) :=
  ite (fun _ => ite (fun _ => h.onLink.goBackFrom) fun _ => h.onLink) fun _ => h.passFrame

theorem takeSequenced {f : SeqFrame} (h : Tagged s) : Tagged (takeSequenced f s) :=
  ite (fun _ => ite (fun _ => h.judgeSequenced.settleQueue) fun _ => h.judgeSequenced) fun _ => h

theorem receiveSequenced {f : SeqFrame} (h : Tagged s) : Tagged (receiveSequenced f s) :=
  ite (fun _ => ite (fun _ => h.onLink.takeSequenced.judgeTakeover) fun _ => h.onLink) fun _ => h.passFrame

theorem judgeFrame {l : List Byte} (h : Tagged s) : Tagged (judgeFrame l s) := by
  unfold Machine.judgeFrame
  split
  · exact h.onLink
  · exact h.receiveHello
  · exact h.receiveHeartbeat
  · exact h.receiveAck
  · exact h.receiveNak
  · exact h.receiveSequenced

theorem readOn {l : List Byte} (h : Tagged s) : Tagged (readOn l s) :=
  ite (fun _ => h.onLink.judgeFrame) fun _ => h.onLink

theorem takeByte {x : CableByte} (h : Tagged s) : Tagged (takeByte x s) := by
  refine ite (fun _ => ite (fun _ => h.onLink.readOn) fun _ => ?_) fun _ => h.receiveByte
  split
  · exact h.readOn
  · exact h.receiveByte

theorem takeAll (h : Tagged s) (l : List CableByte) : Tagged (takeAll l s) := by
  induction l generalizing s with
  | nil => exact h
  | cons x l ih => exact ih h.takeByte

theorem takeBytes {l : List Byte} {x : Bool} (h : Tagged s) : Tagged (takeBytes l x s) :=
  ite (fun _ => (h.takeAll _).onLink) fun _ => h.takeAll _

/-! ### The events -/

theorem helloTimeout (h : Tagged s) : Tagged (helloTimeout s) := ite (fun _ => h.toTrain) fun _ => h

theorem helloDue (h : Tagged s) : Tagged (helloDue s) := ite (fun _ => h.onLink) fun _ => h

theorem helloSent (h : Tagged s) : Tagged (helloSent s) :=
  ite (fun _ => h.onLink.tryUp.judgeTakeover) fun _ => h

theorem ackExpired (h : Tagged s) : Tagged (ackExpired s) := ite (fun _ => retrain (onDisp h fun _ => rfl)) fun _ => h

theorem closedRetrain (h : Tagged s) : Tagged (closedRetrain s) := ite (fun _ => h.retrain) fun _ => h

theorem beginCopy {k : Slot} (h : Tagged s) : Tagged (beginCopy k s) := ite (fun _ => h.onJournals) fun _ => h

theorem insertNext (h : Tagged s) : Tagged (insertNext s) := by
  refine ite (fun _ => ?_) fun _ => h
  split
  · split
    · exact h.onJournals.onJournals
    · exact h
  · exact h

theorem levelSampled {x : Bool} (h : Tagged s) : Tagged (levelSampled x s) :=
  ite (fun _ => h) fun _ => h.onRc.judgeLost

theorem dualExpired (h : Tagged s) : Tagged (dualExpired s) := by
  unfold Machine.dualExpired
  split
  · exact h.onRc.dualClaimDetected.judgeTakeover
  · exact h

theorem handoffExpired (h : Tagged s) : Tagged (handoffExpired s) := ite (fun _ => h.handoffReturns) fun _ => h

theorem livenessExpired (h : Tagged s) : Tagged (livenessExpired s) :=
  ite (fun _ => ite (fun _ => h.onRc.raise.releaseIfHeld) fun _ => h.onRc.raise) fun _ => h

theorem clockLost (h : Tagged s) : Tagged (clockLost s) :=
  ite (fun _ => h.onRc.onRc.raise.releaseIfHeld) fun _ => h.onRc

theorem clockReturned (h : Tagged s) : Tagged (clockReturned s) := by
  unfold Machine.clockReturned
  split
  · exact h.onRc.onBpt.forward
  · exact h.onRc

end Tagged
end Sys2Proof.Machine
end

section
open Sys2Proof Sys2Proof.Machine
/-! Every command, and every step, keeps the laws of the tags. -/

namespace Sys2Proof.Machine

variable {s t : State}

namespace Tagged

/-- After power-on nothing is in flight, and no tag but a clean one is held (R48, R168). -/
theorem powerOn (u : UnitId) (c : Bool) (q : Option Nat) (m : Memory) (n : Nat) (l : List Instr) :
    Tagged (powerOn u c q m n l) := by
  refine cleared (fun k w hw => ?_) rfl rfl rfl rfl
  have empty : (Machine.powerOn u c q m n l).windows[k] = .none := Vector.getElem_replicate ..
  rw [recordAt, empty] at hw
  cases hw

/-- A window is installed in INIT, where nothing is in flight and every tag is clean (R10, R11). -/
theorem installWindow (hr : Ruled True s) (h0 : s.rc.role = .init) (h : Tagged s) (k : Slot) (w : Window) :
    Tagged (installWindow k w s) := by
  have quiet : Quiet s := hr.quiet (by rw [h0]; rfl)
  have outstanding : s.rts.outstanding = 0 := by
    rw [h.count, if_pos quiet.phase]
  refine cleared (basesLaw_recompute _) ?_ outstanding quiet.phase quiet.inFlight
  have tags : (Machine.installWindow k w s).rts.tags = (freshTags (tagBaseOf (replaceSlot s.windows k w) k) w.records s.rts).tags :=
    rfl
  rw [tags, freshTags, quiet.tags]
  rfl

theorem completeProlonged (hr : Ruled True s) (h : Tagged s) : Tagged (completeProlonged s) := by
  unfold Machine.completeProlonged
  split
  · next k w n running =>
    exact (h.installWindow hr (hr.table (by simp [tableCommandRuns, running])) k w).completeWith
  · next k n running =>
    exact (h.installWindow hr (hr.table (by simp [tableCommandRuns, running])) k .none).completeWith
  · exact h

theorem tick (h : Tagged s) : Tagged (tick s) := h.of_same rfl rfl rfl rfl

theorem takeWaiting (h : Tagged s) (taken : takeWaiting s = some t) : Tagged t := by
  unfold Machine.takeWaiting at taken
  split at taken
  · split at taken
    · cases taken
    · cases taken
      exact h.onBpt.takeAccess
  · cases taken

/-- Every command has a next state, which keeps the laws. -/
theorem exec (c : Instr) (hr : Ruled True s) (h : Tagged s) : ∃ t, exec c s = .next t ∧ Tagged t := by
  cases c
  case powerOnReset b => exact ⟨_, rfl, powerOn ..⟩
  case journalStallRoom => exact ⟨_, rfl, h.stallRoom⟩
  case journalStallExpiry => exact ⟨_, rfl, h.stallExpiry⟩
  case ordinaryAccess | controlPageWrite | statusPageWrite | recordWindowWrite | journalWindowWrite | windowRead |
      livenessWrite | noticeEnable | noticeClear | defineWindow | clearWindow | setTiming | start | stop | switchover |
      takeOver | release | resume | resync | queryRecord | unknownCommand => exact ⟨_, rfl, h.present⟩
  case trainingByteReceived | byteBetweenFrames => exact ⟨_, rfl, h.takeEvent .takeByte⟩
  case receivedClockTimeout => exact ⟨_, rfl, h.takeEvent .loseAlignment⟩
  case helloReceived => exact ⟨_, rfl, h.takeEvent .receiveHello⟩
  case heartbeatReceived => exact ⟨_, rfl, h.takeEvent .receiveHeartbeat⟩
  case ackReceived => exact ⟨_, rfl, h.takeEvent .receiveAck⟩
  case invalidFrame => exact ⟨_, rfl, h.takeEvent .takeBytes⟩
  case heartbeatPeriodBoundary => exact ⟨_, rfl, h.takeEvent .boundaryPassed⟩
  case ackTimerExpiry => exact ⟨_, rfl, h.takeEvent .ackExpired⟩
  case sequenceClosedRetrain => exact ⟨_, rfl, h.takeEvent .closedRetrain⟩
  case claimInChange => exact ⟨_, rfl, h.takeEvent .levelSampled⟩
  case dualClaimTimerExpiry => exact ⟨_, rfl, h.takeEvent .dualExpired⟩
  case livenessExpiry => exact ⟨_, rfl, h.takeEvent .livenessExpired⟩
  case busClockLost => exact ⟨_, rfl, h.takeEvent .clockLost⟩
  case heldReadRelease => exact ⟨_, rfl, h.releaseRead.close⟩
  case prolongedCommandCompletion => exact ⟨_, rfl, (h.completeProlonged hr).close⟩
  case interfaceResetEnd => exact ⟨_, rfl, h.onLink.close⟩
  case helloStateTimeout => exact ⟨_, rfl, h.helloTimeout.close⟩
  case helloInterval => exact ⟨_, rfl, h.helloDue.close⟩
  case frameTransmitStart => exact ⟨_, rfl, h.frameBoundary.close⟩
  case helloTransmitted => exact ⟨_, rfl, h.helloSent.close⟩
  case nakReceived => exact ⟨_, rfl, h.receiveNak.close⟩
  case sequencedFrameReceived => exact ⟨_, rfl, h.receiveSequenced.close⟩
  case itemStart => exact ⟨_, rfl, h.startNext.close⟩
  case readoutRead | statusPostingWrite => exact ⟨_, rfl, h.portSlot.close⟩
  case copyStart => exact ⟨_, rfl, h.beginCopy.close⟩
  case blockInsertion => exact ⟨_, rfl, h.insertNext.close⟩
  case applyMergeRead => exact ⟨_, rfl, (ite (fun _ => h.portSlot) fun _ => h).close⟩
  case applyWordWrite => exact ⟨_, rfl, (ite (fun _ => h) fun _ => h.portSlot).close⟩
  case syncVisit => exact ⟨_, rfl, h.visitSync.close⟩
  case syncCompletion => exact ⟨_, rfl, h.finishSync.close⟩
  case refreshVisit => exact ⟨_, rfl, h.visitRefresh.close⟩
  case refreshPassEnd => exact ⟨_, rfl, h.passEnd.close⟩
  case handoffTimerExpiry => exact ⟨_, rfl, h.handoffExpired.close⟩
  case busClockReturn => exact ⟨_, rfl, h.clockReturned.close⟩
  case postingTick => exact ⟨_, rfl, (h.postCounts countWords).onCsu.close⟩

theorem step (hr : Ruled True s) (h : Tagged s) (ran : step s = .next t) : Tagged t := by
  unfold Machine.step at ran
  split at ran
  · unfold Machine.idle at ran
    split at ran
    · next taken =>
      cases ran
      exact h.takeWaiting taken
    · split at ran
      · next c _ =>
        obtain ⟨u, next, kept⟩ := h.exec c hr
        rw [next] at ran
        cases ran
        exact kept
      · cases ran
        exact h.tick
  · next c rest _ =>
    have front : Ruled True { s with pending := rest } := { hr with }
    obtain ⟨u, next, kept⟩ := exec (s := { s with pending := rest }) c front h
    rw [next] at ran
    cases ran
    exact kept

end Tagged

end Sys2Proof.Machine

/-- Settles O59: the two laws together are `Tagged`, which every effect of the part keeps. -/
theorem tagsKept : Obligations.TagsKept := fun _ _ role link _ cover flight ran =>
  tagged_iff.1 ((tagged_iff.2 ⟨cover, flight⟩).step ((ruled_iff _).2 ⟨role, link⟩) ran)
end

section
open Sys2Proof Sys2Proof.Machine
/-! QUERY_RECORD and SWITCHOVER on a free bus with an idle CSU. -/

namespace Sys2Proof.Machine

variable {rest : BitVec 56} {e : BitVec 7} {s : State}

@[simp] theorem intaken_rts (code : Byte) : (intaken code rest e s).rts = s.rts := rfl
@[simp] theorem intaken_link (code : Byte) : (intaken code rest e s).link = s.link := rfl

/-! ## QUERY_RECORD (R55) -/

/-- A number above 7 names no slot (R175). -/
theorem slotOperand_eq_none {w : DWord} (h : 7 < bitsOf w 0 8) : slotOperand w = none := dif_neg (by omega)

theorem slotOperand_eq_some {w : DWord} {k : Slot} (h : bitsOf w 0 8 = k.val) : slotOperand w = some k := by
  rw [slotOperand, dif_pos (h ▸ k.isLt)]
  exact congrArg some (Fin.ext h)

theorem commanded_query_refused
    (h : ∀ k w, slotOperand s.bpt.shadow[1] = some k → recordAt s.windows k = some w →
      w.count ≤ bitsOf s.bpt.shadow[1] 32 16) :
    commanded .queryRecord rest e s =
      completeWith Command.queryRecord.code .badArgument 0 (intaken Command.queryRecord.code rest e s) := by
  simp only [commanded, runCommand, commandQuery, intaken_windows, intaken_rts]
  cases slot : slotOperand s.bpt.shadow[1] with
  | none => rfl
  | some k =>
    cases window : recordAt s.windows k with
    | none => simp only [window]
    | some w => simp only [window, if_neg (Nat.not_lt.2 (h k w slot window))]

theorem commanded_query_reports {k : Slot} {w : RecordWindow} (slot : slotOperand s.bpt.shadow[1] = some k)
    (window : recordAt s.windows k = some w) (place : bitsOf s.bpt.shadow[1] 32 16 < w.count) :
    commanded .queryRecord rest e s =
      completeWith Command.queryRecord.code .ok (queryField (tagAt s.rts (w.tagBase + bitsOf s.bpt.shadow[1] 32 16)))
        (intaken Command.queryRecord.code rest e s) := by
  simp only [commanded, runCommand, commandQuery, intaken_windows, intaken_rts, slot, window, if_pos place]

/-- The result field: the state's number in the low byte, and the covered mark above it (R177). -/
theorem queryField_eq (t : Tag) : queryField t =
    (match t.state with
      | .clean => 0 | .stale => 1 | .dirty => 2 | .flight => 3 | .flightStale => 4 | .flightDirty => 5) +
      if t.covered then 256 else 0 := by
  obtain ⟨x, b⟩ := t
  cases x <;> cases b <;> rfl

/-! ## Convergence (R147) -/

/-- A part has no DIRTY record and none in flight exactly where every listed tag is CLEAN or STALE (R36). -/
theorem settled_iff (r : Rts) :
    dirtyTotal r = 0 ∧ flightTotal r = 0 ↔ ∀ p ∈ r.tags, p.2.state = .clean ∨ p.2.state = .stale := by
  have total (x : TagState) : tagTotal x r = 0 ↔ ∀ p ∈ r.tags, p.2.state ≠ x := by
    simp [tagTotal, List.filter_eq_nil_iff]
  have other (x : TagState) :
      x = .clean ∨ x = .stale ↔ x ≠ .dirty ∧ (x ≠ .flight ∧ x ≠ .flightStale) ∧ x ≠ .flightDirty := by
    cases x <;> decide
  simp only [dirtyTotal, flightTotal, Nat.add_eq_zero_iff, total, other]
  exact ⟨fun ⟨h1, ⟨h2, h3⟩, h4⟩ p hp => ⟨h1 p hp, ⟨h2 p hp, h3 p hp⟩, h4 p hp⟩,
    fun h => ⟨fun p hp => (h p hp).1, ⟨fun p hp => (h p hp).2.1.1, fun p hp => (h p hp).2.1.2⟩, fun p hp => (h p hp).2.2⟩⟩

theorem journalsInStep_iff : journalsInStep s = true ↔
    ∀ k : Slot, s.journals.states[k] = none ∨ s.journals.states[k] = some .inStep := by
  simp [journalsInStep, mem_allSlots]

/-- The part has converged (R147). -/
theorem converged_iff : converged s = true ↔
    dirtyTotal s.rts = 0 ∧ flightTotal s.rts = 0 ∧ s.journals.queue = [] ∧ s.pass.phase = .none ∧
      ∀ k : Slot, s.journals.states[k] = none ∨ s.journals.states[k] = some .inStep := by
  simp only [converged, Bool.and_eq_true, decide_eq_true_eq, journalsInStep_iff, and_assoc]

/-- A refresh visit leaves CLEAN what was CLEAN, and nothing STALE (R44). -/
theorem afterRefresh_settled (x : TagState) : afterRefresh x = .clean ∨ afterRefresh x = .stale ↔ x = .clean := by
  cases x <;> decide

/-- Behind the handoff sweep the records are settled exactly where all were CLEAN (R49). -/
theorem settled_handoffSweep : dirtyTotal (handoffSweep s).rts = 0 ∧ flightTotal (handoffSweep s).rts = 0 ↔
    ∀ p ∈ s.rts.tags, p.2.state = .clean := by
  rw [settled_iff]
  show (∀ p ∈ s.rts.tags.map _, _) ↔ _
  rw [List.forall_mem_map]
  exact forall₂_congr fun p _ => afterRefresh_settled p.2.state

/-! ## SWITCHOVER (R146) -/

theorem commandSwitchover_role {w : DWord} (h : s.rc.role ≠ .active) :
    commandSwitchover w s = completeWith Command.switchover.code .wrongRole 0 s := if_pos h

theorem commandSwitchover_time {w : DWord} (h : s.rc.role = .active) (time : bitsOf w 0 16 < 10 ∨ 10000 < bitsOf w 0 16) :
    commandSwitchover w s = completeWith Command.switchover.code .badArgument 0 s :=
  (if_neg (not_not.2 h)).trans (if_pos time)

/-- The peer is paired, STANDBY and in sync, as SWITCHOVER asks (R146). -/
def readyPeer (s : State) : Prop := s.link.view = .paired ∧ s.link.peer.role = .standby ∧ s.link.peer.sync = .inSync

theorem not_readyPeer : ¬ readyPeer s ↔
    s.link.view ≠ .paired ∨ s.link.peer.role ≠ .standby ∨ s.link.peer.sync ≠ .inSync := by
  rw [readyPeer, not_and_or, not_and_or]

theorem commandSwitchover_peer {w : DWord} (h : s.rc.role = .active)
    (time : ¬ (bitsOf w 0 16 < 10 ∨ 10000 < bitsOf w 0 16)) (peer : ¬ readyPeer s) :
    commandSwitchover w s = completeWith Command.switchover.code .notPaired 0 s :=
  (if_neg (not_not.2 h)).trans ((if_neg time).trans (if_pos (not_readyPeer.1 peer)))

/-- The entry to HANDOFF with a timer of `ms` milliseconds, before convergence is judged (R49, R146). -/
def enterHandoff (ms : Nat) (s : State) : State :=
  handoffSweep
    (((setRole .handoff s).onRc fun c => { c with closing := false, handoff := some 0, handoffMs := ms }).onCsu fun c =>
      { c with running := some .switchover })

theorem commandSwitchover_enters {w : DWord} (h : s.rc.role = .active)
    (time : ¬ (bitsOf w 0 16 < 10 ∨ 10000 < bitsOf w 0 16)) (peer : readyPeer s) :
    commandSwitchover w s = judgeConverged (enterHandoff (bitsOf w 0 16) s) :=
  (if_neg (not_not.2 h)).trans ((if_neg time).trans (if_neg fun unready => not_readyPeer.2 unready peer))

/-- Everything the entry to HANDOFF changes (R49, R134, R138, R146). -/
theorem enterHandoff_spec (ms : Nat) (h : s.rc.role = .active) (law : ClaimLaw s) :
    ∃ q, enterHandoff ms s =
      { s with
        rc :=
          { s.rc with role := .handoff, closing := false, claimOut := true, handoff := some 0, handoffMs := ms }
        rts := { s.rts with tags := s.rts.tags.map fun p => (p.1, { p.2 with state := afterRefresh p.2.state }) }
        csu :=
          { s.csu with
            running := some .switchover, pendingSet := s.csu.pendingSet ||| Notice.roleChanged.mask, postQueue := q } } := by
  have claiming : claims s.rc.role = true := by rw [h]; rfl
  have dual : dualAfter (claims .handoff && s.rc.claimIn) s.rc.dual = s.rc.dual := dualAfter_self law.2 claiming
  refine ⟨postInto 0 (statusWord (setRole .handoff s) 0) s.csu.postQueue, ?_⟩
  unfold enterHandoff
  rw [setRole_spec, dual]
  rfl

/-- The entry to HANDOFF with nothing left to send is closing at once (R147). -/
theorem judgeConverged_enterHandoff (ms : Nat) :
    judgeConverged (enterHandoff ms s) =
      if (∀ p ∈ s.rts.tags, p.2.state = .clean) ∧ s.journals.queue = [] ∧ s.pass.phase = .none ∧
          ∀ k : Slot, s.journals.states[k] = none ∨ s.journals.states[k] = some .inStep then
        ((enterHandoff ms s).onRc fun c => { c with closing := true, handoff := none }).onDisp fun d =>
          { d with handoverArm := true }
      else enterHandoff ms s := by
  refine if_congr ?_ rfl rfl
  rw [converged_iff, ← and_assoc (a := dirtyTotal _ = 0)]
  have settled : dirtyTotal (enterHandoff ms s).rts = 0 ∧ flightTotal (enterHandoff ms s).rts = 0 ↔
      ∀ p ∈ s.rts.tags, p.2.state = .clean := settled_handoffSweep
  rw [settled]
  exact ⟨fun h => h.2.2, fun h => ⟨rfl, rfl, h⟩⟩

end Sys2Proof.Machine

/-- Settles O27: the three refusals and the report, each an answer to the intake. -/
theorem queryReports : Obligations.QueryReports := by
  intro rest check e s free idle
  have refuses := fun h => writeCommand_answered check free idle (commanded_query_refused (rest := rest) (e := e) h)
  refine ⟨fun above => ⟨_, rfl, refuses fun k w slot => ?_⟩, fun k named => ⟨fun none => ⟨_, rfl, refuses fun j w slot window => ?_⟩,
    fun w window => ⟨fun above => ⟨_, rfl, refuses fun j v slot found => ?_⟩, fun place => ⟨_, rfl, ?_⟩⟩⟩⟩
  · cases (slotOperand_eq_none above).symm.trans slot
  · cases (slotOperand_eq_some named).symm.trans slot
    cases none.symm.trans window
  · cases (slotOperand_eq_some named).symm.trans slot
    cases window.symm.trans found
    exact above
  · refine (writeCommand_answered check free idle (commanded_query_reports (slotOperand_eq_some named) window place)).trans ?_
    rw [queryField_eq]
    rfl

/-- Settles O23: the three refusals answer the intake, and the entry to HANDOFF is judged for convergence at once. -/
theorem switchoverEntersHandoff : Obligations.SwitchoverEntersHandoff := by
  intro rest check e s free idle
  refine ⟨fun role => ⟨_, rfl, writeCommand_answered check free idle (commandSwitchover_role role)⟩,
    fun role time => ⟨_, rfl, writeCommand_answered check free idle (commandSwitchover_time role time)⟩,
    fun role low high peer => ⟨_, rfl, writeCommand_answered check free idle
      (commandSwitchover_peer role (not_or.2 ⟨Nat.not_lt.2 low, Nat.not_lt.2 high⟩) peer)⟩,
    fun role law low high peer => ⟨_, rfl, ?_⟩⟩
  have taken := writeCommand_unreported (c := .switchover) (rest := rest) (check := check) (e := e) free idle
  have enters : commanded .switchover rest e s =
      judgeConverged (enterHandoff (bitsOf s.bpt.shadow[1] 0 16) (intaken Command.switchover.code rest e s)) :=
    commandSwitchover_enters role (not_or.2 ⟨Nat.not_lt.2 low, Nat.not_lt.2 high⟩) peer
  obtain ⟨q, x, intake⟩ := intaken_spec Command.switchover.code rest e s
  obtain ⟨q', entered⟩ := enterHandoff_spec (s := intaken Command.switchover.code rest e s)
    (bitsOf s.bpt.shadow[1] 0 16) role law
  rw [judgeConverged_enterHandoff] at enters
  constructor
  · intro going
    replace enters := enters.trans (if_neg going)
    rw [entered, intake] at enters
    rw [enters] at taken
    refine (taken free.1.2.2 free.2).trans ?_
    simp only [Bool.or_false]
    rfl
  · intro done
    replace enters := enters.trans (if_pos done)
    rw [entered, intake] at enters
    rw [enters] at taken
    refine (taken free.1.2.2 free.2).trans ?_
    simp only [Bool.or_true]
    rfl
end

section
open Sys2Proof Sys2Proof.Machine
/-! The passes: the pacing offsets, the sync visits and their completion, and the refresh visits. -/

namespace Sys2Proof.Machine

/-! ## Pacing (R123) -/

/-- Every interval lasts ⌊T/n⌋ ticks, and the first T mod n of them one tick more (R123). -/
theorem visitOffset_eq (n t i : Nat) : visitOffset n t i = i * (t / n) + min i (t % n) := by
  have remainder : t - t / n * n = t % n := by
    rw [Nat.mul_comm, ← Nat.mod_eq_sub_mul_div]
  simp only [visitOffset, remainder]
  split
  · next h => rw [Nat.min_eq_left h, Nat.mul_succ]
  · next h =>
    obtain ⟨d, rfl⟩ := Nat.exists_eq_add_of_lt (Nat.not_le.1 h)
    rw [Nat.min_eq_right (by omega), show t % n + d + 1 - t % n = d + 1 by omega]
    ring

theorem visitOffset_end {n t : Nat} (hn : 0 < n) : visitOffset n t n = t := by
  rw [visitOffset_eq, Nat.min_eq_right (Nat.mod_lt t hn).le, Nat.div_add_mod]

theorem visitOffset_succ (n t i : Nat) :
    visitOffset n t (i + 1) = visitOffset n t i + t / n + (if i < t % n then 1 else 0) := by
  rw [visitOffset_eq, visitOffset_eq, Nat.succ_mul]
  split <;> omega

/-! ## The sync pass (R121, R122, R124, R126) -/

variable {s : State}

/-- A visit that is not ahead of its offset moves one tag and the position (R45, R121, R124). -/
theorem syncStep_eq (onTime : ∀ d, s.csu.timing.syncMode = .paced d →
      visitOffset (totalRecords s.windows) (syncTicks d) s.pass.syncPos ≤ s.pass.syncClock) :
    syncStep s =
      { s with
        rts := setTag s.pass.syncPos (tagAfter .syncVisit (tagAt s.rts s.pass.syncPos)) s.rts
        pass := { s.pass with syncPos := s.pass.syncPos + 1 } } := by
  unfold syncStep
  cases mode : s.csu.timing.syncMode with
  | demand b => rfl
  | paced d =>
    simp only [Nat.max_eq_left (onTime d mode)]
    rfl

theorem syncVisitDue_demand {b : Nat} (mode : s.csu.timing.syncMode = .demand b) : syncVisitDue s = true ↔
    (s.pass.phase = .passing ∧ s.pass.syncPos < totalRecords s.windows) ∧ backlog s.rts < b := by
  simp only [syncVisitDue, syncStepsLeft, mode, Bool.and_eq_true, decide_eq_true_eq]

theorem syncVisitDue_paced {d : Nat} (mode : s.csu.timing.syncMode = .paced d) : syncVisitDue s = true ↔
    s.pass.phase = .passing ∧ s.pass.syncPos < totalRecords s.windows := by
  simp [syncVisitDue, syncStepsLeft, mode]

/-- A window that is neither DESYNC nor COPYING is IN_STEP, or no journal window (R73). -/
theorem inStep_iff (x : Option JournalState) :
    x = none ∨ x = some .inStep ↔ x ≠ some .desync ∧ isCopying x = false := by
  rcases x with _ | (_ | _ | _) <;> simp [isCopying]

theorem syncComplete_iff : syncComplete s = true ↔
    (s.pass.phase = .passing ∧ s.rts.outstanding = 0) ∧
      ∀ k : Slot, s.journals.states[k] ≠ some .desync ∧ isCopying s.journals.states[k] = false := by
  rw [syncComplete, Bool.and_eq_true, decide_eq_true_eq, journalsInStep_iff]
  exact and_congr_right fun _ => forall_congr' fun k => inStep_iff _

/-! ## The refresh pass (R130) -/

/-- The record at a place of the pass, over a run of slots in ascending order (R130). -/
theorem refreshPlace_spec (t : Vector Window 8) {l : List Slot} (sorted : l.Pairwise (· < ·)) {i : Nat}
    (hi : i < sumSlots Window.refreshRecords t l) :
    ∃ k j, refreshPlace t l i = some (k, j) ∧ k ∈ l ∧ j < (t[k]).refreshRecords ∧
      i = sumSlots Window.refreshRecords t (l.filter fun x => decide (x < k)) + j := by
  induction l generalizing i with
  | nil => cases hi
  | cons x l ih =>
    obtain ⟨first, sorted⟩ := List.pairwise_cons.1 sorted
    rw [refreshPlace]
    by_cases here : i < (t[x]).refreshRecords
    · refine ⟨x, i, if_pos here, List.mem_cons_self, here, ?_⟩
      have none : (x :: l).filter (fun y => decide (y < x)) = [] := by
        rw [List.filter_eq_nil_iff]
        intro y hy
        rcases List.mem_cons.1 hy with rfl | hy
        · simp
        · simpa using (first y hy).le
      rw [none]
      simp [sumSlots]
    · have total : sumSlots Window.refreshRecords t (x :: l) =
          (t[x]).refreshRecords + sumSlots Window.refreshRecords t l := by simp [sumSlots]
      obtain ⟨k, j, found, hk, hj, place⟩ := ih (i := i - (t[x]).refreshRecords) sorted (by omega)
      refine ⟨k, j, (if_neg here).trans found, List.mem_cons_of_mem x hk, hj, ?_⟩
      have before : (x :: l).filter (fun y => decide (y < k)) = x :: l.filter fun y => decide (y < k) :=
        List.filter_cons_of_pos (decide_eq_true (first k hk))
      have sum : sumSlots Window.refreshRecords t (x :: l.filter fun y => decide (y < k)) =
          (t[x]).refreshRecords + sumSlots Window.refreshRecords t (l.filter fun y => decide (y < k)) := by
        simp [sumSlots]
      rw [before, sum]
      omega

/-- A place within the refresh pass is a record of a refresh-enabled window (R130). -/
theorem refreshRecords_pos {t : Vector Window 8} {k : Slot} {j : Nat} (h : j < (t[k]).refreshRecords) :
    ∃ w, recordAt t k = some w ∧ w.refresh = true ∧ j < w.count := by
  unfold Window.refreshRecords at h
  split at h
  · next w hw =>
    split at h
    · next on => exact ⟨w, by rw [recordAt, hw], on, h⟩
    · cases h
  · cases h

theorem refreshStep_eq {k : Slot} {w : RecordWindow} {j : Nat}
    (place : refreshPlace s.windows allSlots s.pass.refreshPos = some (k, j)) (window : recordAt s.windows k = some w)
    (onTime : visitOffset (refreshTotal s.windows) (refreshTicks s) s.pass.refreshPos ≤ s.pass.refreshClock) :
    refreshStep s =
      { s with
        rts := setTag (w.tagBase + j) (tagAfter .refreshVisit (tagAt s.rts (w.tagBase + j))) s.rts
        pass := { s.pass with refreshPos := s.pass.refreshPos + 1 } } := by
  simp only [refreshStep, place, recordEvent, window, State.onPass, tagEvent_spec, Nat.max_eq_left onTime]

end Sys2Proof.Machine

/-- Settles O47: each event where its condition holds and where it does not, and the offsets in closed form. -/
theorem passSteps : Obligations.PassSteps := by
  refine ⟨fun s => ⟨fun passing left b mode => ⟨fun room => ⟨_, rfl, ?_⟩, fun full => ⟨_, rfl, ?_⟩⟩,
    fun passing left d mode due => ⟨_, rfl, ?_⟩, fun passing counted still => ⟨_, rfl, ?_⟩, fun unready => ⟨_, rfl, ?_⟩,
    fun on left due => ?_, fun on ended => ⟨_, rfl, ?_⟩⟩,
    fun n t hn => ⟨by simp [visitOffset_eq], visitOffset_end hn, fun i _ => visitOffset_succ n t i⟩⟩
  · rw [close_unreported, visitSync, if_pos ((syncVisitDue_demand mode).2 ⟨⟨passing, left⟩, room⟩),
      syncStep_eq fun d paced => nomatch mode.symm.trans paced]
  · rw [close_unreported, visitSync, if_neg fun due => Nat.not_lt.2 full ((syncVisitDue_demand mode).1 due).2]
  · rw [close_unreported, visitSync, if_pos ((syncVisitDue_paced mode).2 ⟨passing, left⟩), syncStep_eq]
    intro d' mode'
    cases mode.symm.trans mode'
    exact due
  · rw [close_unreported, finishSync, if_pos (syncComplete_iff.2 ⟨⟨passing, counted⟩, still⟩)]
    rfl
  · rw [close_unreported, finishSync, if_neg]
    intro complete
    obtain ⟨⟨passing, counted⟩, still⟩ := syncComplete_iff.1 complete
    rcases unready with h | h | ⟨k, h | h⟩
    · exact h passing
    · exact h counted
    · exact (still k).1 h
    · exact absurd ((still k).2.symm.trans h) nofun
  · obtain ⟨k, j, place, -, hj, sum⟩ := refreshPlace_spec s.windows (by decide) left
    obtain ⟨w, window, refresh, hw⟩ := refreshRecords_pos hj
    refine ⟨_, k, w, j, rfl, window, refresh, hw, sum, ?_⟩
    have steps : refreshStepsLeft s = true := by simp [refreshStepsLeft, on, left]
    rw [close_unreported, visitRefresh, if_pos steps, refreshStep_eq place window due]
  · have ends : refreshEnds s = true := by simp [refreshEnds, on, ended]
    rw [close_unreported, passEnd, if_pos ends]
    rfl
end

section
open Sys2Proof Sys2Proof.Machine
/-! The sent marks of the Journal Queue beside the in-flight list (R71). -/

namespace Sys2Proof.Machine

/-! ## The marks -/

theorem markSent_entries (n : Nat) (q : List QueuedEntry) : (markSent n q).map (·.entry) = q.map (·.entry) := by
  induction q generalizing n with
  | nil => cases n <;> rfl
  | cons x q ih => cases n <;> simp [markSent, ih]

theorem markSent_sent (n : Nat) (q : List QueuedEntry) (i : Nat) (h : i < (markSent n q).length) :
    (markSent n q)[i].sent = decide (i < n) := by
  induction q generalizing n i with
  | nil => cases n <;> cases h
  | cons x q ih => cases n <;> cases i <;> simp [markSent, ih]

theorem journalsInFlight_eq (l : List InFlight) : journalsInFlight l = (l.filterMap InFlight.journalEntry).length := by
  induction l with
  | nil => rfl
  | cons x l ih =>
    have count : journalsInFlight (x :: l) = journalsInFlight l + (x.journalEntry.toList).length := by
      unfold journalsInFlight InFlight.journalEntry
      rw [List.filter_cons]
      cases x.item <;> rfl
    rw [count, ih, List.filterMap_cons]
    cases x.journalEntry <;> rfl

/-! ## The law for a list and a queue -/

variable {l : List InFlight} {q : List QueuedEntry}

/-- The journal entries of the list `l` are the front of the queue `q`, and exactly they are marked sent (R71). -/
def QueueMarked (l : List InFlight) (q : List QueuedEntry) : Prop :=
  (q.take (l.filterMap InFlight.journalEntry).length).map (·.entry) = l.filterMap InFlight.journalEntry ∧
  ∀ i, ∀ h : i < q.length, q[i].sent = decide (i < (l.filterMap InFlight.journalEntry).length)

theorem journalLaw_iff (s : State) : JournalLaw s ↔ QueueMarked s.disp.inFlight s.journals.queue := .rfl

namespace QueueMarked

/-- The law reads of the list its journal entries alone. -/
theorem congr {m : List InFlight} (h : m.filterMap InFlight.journalEntry = l.filterMap InFlight.journalEntry) :
    QueueMarked m q ↔ QueueMarked l q := by
  unfold QueueMarked
  rw [h]

/-- A queue that is marked anew meets the law where the entries stand in the right places. -/
theorem remarked (h : (q.map (·.entry)).take (l.filterMap InFlight.journalEntry).length = l.filterMap InFlight.journalEntry) :
    QueueMarked l (markSent (journalsInFlight l) q) := by
  rw [journalsInFlight_eq]
  exact ⟨by rw [List.map_take, markSent_entries, h], markSent_sent _ q⟩

/-- The law where the head of the queue has been started: its entry joins the list (R58, R71). -/
theorem started {e : JournalEntry} {x : InFlight} (h : QueueMarked l q) (head : firstUnsent q = some e)
    (hx : x.journalEntry = some e) : QueueMarked (l ++ [x]) (markSent (journalsInFlight (l ++ [x])) q) := by
  obtain ⟨before, after, rfl, sent⟩ := firstUnsent_eq_some.1 head
  obtain ⟨front, marks⟩ := h
  refine remarked ?_
  rw [List.filterMap_append, List.filterMap_cons_some hx, List.filterMap_nil]
  generalize l.filterMap InFlight.journalEntry = m at front marks ⊢
  have unsent := marks before.length (by simp)
  have length : before.length = m.length := by
    rw [List.getElem_append_right le_rfl] at unsent
    simp only [Nat.sub_self, List.getElem_cons_zero] at unsent
    have above : ¬ before.length < m.length := of_decide_eq_false unsent.symm
    by_contra short
    have inside : m.length < before.length := by omega
    have mark := marks m.length (by simp; omega)
    rw [List.getElem_append_left inside, sent _ (List.getElem_mem inside)] at mark
    simp at mark
  rw [List.take_left' length] at front
  rw [List.map_append, List.map_cons, front, List.length_append, List.length_singleton, List.take_length_add_append]
  rfl

/-- The law where the list has lost its tail (R67, R71). -/
theorem goneBack (h : QueueMarked l q) (n : Nat) : QueueMarked (l.take n) (markSent (journalsInFlight (l.take n)) q) := by
  refine remarked ?_
  have parted : l.filterMap InFlight.journalEntry =
      (l.take n).filterMap InFlight.journalEntry ++ (l.drop n).filterMap InFlight.journalEntry := by
    rw [← List.filterMap_append, List.take_append_drop]
  have front := h.1
  rw [List.map_take, parted] at front
  have shorter := congrArg (List.take ((l.take n).filterMap InFlight.journalEntry).length) front
  rw [List.take_take, List.length_append, Nat.min_eq_left (Nat.le_add_right _ _), List.take_left] at shorter
  exact shorter

end QueueMarked

end Sys2Proof.Machine
end

section
open Sys2Proof Sys2Proof.Machine
/-! ITEM_START: the item that is chosen, and what its start changes. -/

namespace Sys2Proof.Machine

variable {s : State}

/-! ## What a choice says (R57, R58) -/

theorem journalCandidate_eq_none {p : Fin 4} : journalCandidate s p = none ↔
    ∀ e w, firstUnsent s.journals.queue = some e → journalAt s.windows e.slot = some w → w.priority ≠ p := by
  rw [Option.eq_none_iff_forall_ne_some]
  constructor
  · exact fun none e w head window own => none _ (journalCandidate_eq_some.2 ⟨e, w, head, window, own, rfl⟩)
  · intro other c chosen
    obtain ⟨e, w, head, window, own, -⟩ := journalCandidate_eq_some.1 chosen
    exact other e w head window own

theorem priorityCandidate_eq_none {p : Fin 4} :
    priorityCandidate s p = none ↔ journalCandidate s p = none ∧ recordCandidate s p = none := Option.or_eq_none_iff

/-- Only a control item is chosen while one is armed (R58). -/
theorem unarmed_of_chosen {c : Choice} (h : chooseItem s = some c) (hc : ∀ i, c ≠ .control i) : armedControl s = none := by
  obtain ⟨-, first, -⟩ := chooseItem_eq_some.1 h
  cases armed : armedControl s with
  | none => rfl
  | some i =>
    rw [firstCandidate, armed] at first
    exact absurd (Option.some.inj first).symm (hc i)

/-- A chosen journal entry is the unsent head of the queue (R58, R71). -/
theorem head_of_chosen {e : JournalEntry} (h : chooseItem s = some (.journal e)) :
    firstUnsent s.journals.queue = some e := by
  obtain ⟨-, first, -⟩ := chooseItem_eq_some.1 h
  obtain ⟨p, own, -⟩ := (firstCandidate_unarmed (unarmed_of_chosen h nofun)).1 first
  rcases Option.or_eq_some_iff.1 own with journal | ⟨-, record⟩
  · obtain ⟨e', _, head, -, -, same⟩ := journalCandidate_eq_some.1 journal
    cases same
    exact head
  · obtain ⟨_, _, same, -⟩ := recordCandidate_eq_some.1 record
    cases same

/-- A chosen record is that of the first window in turn of its priority with a DIRTY record, with no journal head of that
priority or a higher one and no DIRTY record of a higher one (R50, R58). -/
theorem record_of_chosen {k : Slot} {i : Nat} (h : chooseItem s = some (.record k i)) :
    ∃ w, recordAt s.windows k = some w ∧ searchWindow s k = some i ∧
      (∀ p, w.priority ≤ p → journalCandidate s p = none) ∧
      ∀ (j : Slot) v, recordAt s.windows j = some v →
        w.priority < v.priority ∨ (v.priority = w.priority ∧ turnOf s w.priority j < turnOf s w.priority k) →
        Undirtied s v := by
  obtain ⟨-, first, -⟩ := chooseItem_eq_some.1 h
  obtain ⟨p, own, higher⟩ := (firstCandidate_unarmed (unarmed_of_chosen h nofun)).1 first
  rcases Option.or_eq_some_iff.1 own with journal | ⟨noHead, record⟩
  · obtain ⟨_, _, -, -, -, same⟩ := journalCandidate_eq_some.1 journal
    cases same
  · obtain ⟨k', i', same, ready, found, turn⟩ := recordCandidate_eq_some.1 record
    cases same
    obtain ⟨w, window, priority, -⟩ := recordReady_iff.1 ready
    subst priority
    refine ⟨w, window, found, fun p hp => ?_, fun j v slot before => ?_⟩
    · rcases hp.lt_or_eq with hp | rfl
      · exact (priorityCandidate_eq_none.1 (higher p hp)).1
      · exact noHead
    · rcases before with above | ⟨same, before⟩
      · exact recordCandidate_eq_none.1 (priorityCandidate_eq_none.1 (higher _ above)).2 j v slot rfl
      · by_contra dirty
        have ready : recordReady s w.priority j = true := recordReady_iff.2 ⟨v, slot, same, dirty⟩
        exact absurd (ready.symm.trans (turn j before)) nofun

/-! ## What makes a choice -/

/-- The unsent head of the queue is chosen where no control item is armed and no window of a higher priority has a DIRTY
record (R58). -/
theorem chooseItem_journal {e : JournalEntry} {w : JournalWindow} (sends : sendingCondition s = true)
    (unarmed : armedControl s = none) (head : firstUnsent s.journals.queue = some e)
    (window : journalAt s.windows e.slot = some w)
    (higher : ∀ (j : Slot) v, recordAt s.windows j = some v → w.priority < v.priority → Undirtied s v)
    (free : (Choice.journal e).needsReadout = true → freeReadout s.disp ≠ none) : chooseItem s = some (.journal e) := by
  refine chooseItem_eq_some.2 ⟨sends, (firstCandidate_unarmed unarmed).2 ⟨w.priority, ?_, fun p hp => ?_⟩, free⟩
  · exact Option.or_eq_some_iff.2 (.inl (journalCandidate_eq_some.2 ⟨e, w, head, window, rfl, rfl⟩))
  · refine priorityCandidate_eq_none.2 ⟨journalCandidate_eq_none.2 fun e' w' head' window' own => ?_,
      recordCandidate_eq_none.2 fun j v slot own => higher j v slot (own ▸ hp)⟩
    cases head.symm.trans head'
    cases window.symm.trans window'
    exact hp.ne own

/-- The record that the search finds in the first window in turn is chosen where no control item is armed, no journal head
of its priority or a higher one waits and no window of a higher priority has a DIRTY record (R50, R58). -/
theorem chooseItem_record {k : Slot} {w : RecordWindow} {i : Nat} (sends : sendingCondition s = true)
    (unarmed : armedControl s = none) (free : freeReadout s.disp ≠ none)
    (journals : ∀ e v, firstUnsent s.journals.queue = some e → journalAt s.windows e.slot = some v →
      v.priority < w.priority)
    (before : ∀ (j : Slot) v, recordAt s.windows j = some v →
      w.priority < v.priority ∨ (v.priority = w.priority ∧ turnOf s w.priority j < turnOf s w.priority k) →
      Undirtied s v)
    (window : recordAt s.windows k = some w) (found : searchWindow s k = some i) :
    chooseItem s = some (.record k i) := by
  refine chooseItem_eq_some.2 ⟨sends, (firstCandidate_unarmed unarmed).2 ⟨w.priority, ?_, fun p hp => ?_⟩, fun _ => free⟩
  · refine Option.or_eq_some_iff.2 (.inr ⟨journalCandidate_eq_none.2 fun e v head slot own =>
      (journals e v head slot).ne own, recordCandidate_eq_some.2 ⟨k, i, rfl, ?_, found, fun j first => ?_⟩⟩)
    · refine recordReady_iff.2 ⟨w, window, rfl, fun clean => ?_⟩
      have none := (searchWindow_isSome window).2 clean
      rw [found] at none
      cases none
    · by_contra ready
      obtain ⟨v, slot, own, dirty⟩ := recordReady_iff.1 (by simpa using ready)
      exact dirty (before j v slot (.inr ⟨own, first⟩))
  · exact priorityCandidate_eq_none.2 ⟨journalCandidate_eq_none.2 fun e v head slot own =>
      absurd (own ▸ hp) (journals e v head slot).not_gt,
      recordCandidate_eq_none.2 fun j v slot own => before j v slot (.inl (own ▸ hp))⟩

/-! ## The start (R59, R65, R68) -/

/-- Everything an entry that joins the in-flight list changes (R59, R65, R68). -/
theorem joinInFlight_spec (i : Item) (r : Option (Fin 4)) (s : State) : joinInFlight i r s =
    { s with
      link := { s.link with nextSeq := s.link.nextSeq + 1 }
      disp :=
        { s.disp with
          inFlight := s.disp.inFlight ++ [⟨s.link.nextSeq, i, none, false, r⟩]
          ackTimer := if s.disp.inFlight = [] then some 0 else s.disp.ackTimer } } := by
  simp only [joinInFlight, State.onDisp, State.onLink, List.isEmpty_iff]

theorem startNext_chosen {c : Choice} (h : chooseItem s = some c) : startNext s = startItem c s := by
  simp only [startNext, h]

theorem chooseItem_control {i : ControlItem} (sends : sendingCondition s = true) (armed : armedControl s = some i) :
    chooseItem s = some (.control i) :=
  chooseItem_eq_some.2 ⟨sends, by rw [firstCandidate, armed], nofun⟩

/-- The start of a journal entry with the readout slot `r`, if it takes one: the entry joins the list, and the marks follow
(R59, R71). -/
theorem journalLaw_started {e : JournalEntry} {u : State} {r : Option (Fin 4)} (law : JournalLaw s)
    (chosen : chooseItem s = some (.journal e)) (queue : u.journals.queue = s.journals.queue)
    (inFlight : u.disp.inFlight = s.disp.inFlight) : JournalLaw (remarkSent (joinInFlight (.journal e) r u)) := by
  rw [joinInFlight_spec]
  have started := QueueMarked.started ((journalLaw_iff s).1 law) (head_of_chosen chosen)
    (x := ⟨u.link.nextSeq, .journal e, none, false, r⟩) rfl
  rw [← queue, ← inFlight] at started
  exact started

/-- The awaited SYNC_DONE takes its number as it starts (R117). -/
theorem awaitedStarted_syncDone (g : Gen) (q : SeqNo) (p : PassEngine) : awaitedStarted (.syncDone g) q p =
    { p with awaited := if p.awaited = .armed then .started q else p.awaited } := by
  show (if _ then _ else _) = _
  split <;> simp [*]

theorem startItem_word {k : Slot} {f : Nat} {d : DWord} {m : Byte} :
    startItem (.journal (.word k f d m)) s = remarkSent (joinInFlight (.journal (.word k f d m)) none s) := rfl

theorem startItem_block {k : Slot} {f : Nat} {b : Bool} {r : Fin 4} (free : freeReadout s.disp = some r) :
    startItem (.journal (.block k f b)) s =
      remarkSent (joinInFlight (.journal (.block k f b)) (some r) (occupy r (.block k f) s)) := by
  simp only [startItem, free]

/-- The start of a record: its tag enters the flight family, the pointers move behind it, and its readout begins (R40, R50,
R58, R60). -/
theorem startItem_record {k : Slot} {i : Nat} {w : RecordWindow} {r : Fin 4} (free : freeReadout s.disp = some r)
    (window : recordAt s.windows k = some w) (dirty : (tagAt s.rts (w.tagBase + i)).state = .dirty) :
    startItem (.record k i) s =
      { s with
        link := { s.link with nextSeq := s.link.nextSeq + 1 }
        rts :=
          { setTag (w.tagBase + i) { tagAt s.rts (w.tagBase + i) with state := .flight } s.rts with
            pointers := s.rts.pointers.set k ((i + 1) % w.count) }
        disp :=
          { s.disp with
            roundRobin := s.disp.roundRobin.set w.priority k
            readouts := s.disp.readouts.set r (some ⟨s.link.nextSeq, .record k i, true, [], 0⟩)
            inFlight := s.disp.inFlight ++ [⟨s.link.nextSeq, .record k i, none, false, some r⟩]
            ackTimer := if s.disp.inFlight = [] then some 0 else s.disp.ackTimer } } := by
  have selected : tagAfter .selection (tagAt s.rts (w.tagBase + i)) = { tagAt s.rts (w.tagBase + i) with state := .flight } := by
    simp [tagAfter, dirty, afterSelection]
  simp only [startItem, free, window, joinInFlight_spec, tagEvent_spec, selected]
  rfl

end Sys2Proof.Machine

/-- Settles O41: which item is chosen by `chooseItem_journal`, `chooseItem_record` and `record_of_chosen`, and its start by
the `startItem` lemmas. -/
theorem itemStarted : Obligations.ItemStarted := by
  intro s
  have begins {c : Choice} (chosen : chooseItem s = some c) :
      (close s (startNext s)).unreported = (startItem c s).unreported := by
    rw [close_unreported, startNext_chosen chosen]
  refine ⟨fun e w sends unarmed head window higher free => ?journal,
    fun k w i sends unarmed ⟨r, free⟩ journals before window hi dirty pointer search => ?record,
    fun sends begun => ⟨_, rfl, ?syncBegin⟩, fun sends begun done => ⟨_, rfl, ?syncDone⟩,
    fun sends begun done handover => ⟨_, rfl, ?handover⟩, fun k f d m chosen law => ⟨_, rfl, ?word⟩,
    fun k f b chosen law => ?block, fun full => ?full, fun k i chosen form => ?started, fun none => ⟨_, rfl, ?none⟩⟩
  case journal =>
    refine chooseItem_journal (sendingCondition_iff.2 sends) (armedControl_eq_none.2 unarmed) (firstUnsent_eq_some.2 head)
      window higher fun needs none => ?_
    rcases free with ⟨r, free⟩ | ⟨k, f, d, m, rfl⟩
    · exact freeReadout_eq_none.1 none r free
    · cases needs
  case record =>
    exact chooseItem_record (sendingCondition_iff.2 sends) (armedControl_eq_none.2 unarmed)
      (fun none => freeReadout_eq_none.1 none r free) (fun e v head => journals e v (firstUnsent_eq_some.1 head)) before
      window ((searchWindow_eq_some window pointer).2 ⟨hi, dirty, search⟩)
  case syncBegin =>
    rw [begins (chooseItem_control (i := .syncBegin) (sendingCondition_iff.2 sends) (by simp [armedControl, begun])), startItem,
      joinInFlight_spec]
    rfl
  case syncDone =>
    rw [begins (chooseItem_control (i := .syncDone s.pass.gen) (sendingCondition_iff.2 sends)
      (by simp [armedControl, begun, done])), startItem, joinInFlight_spec]
    simp only [State.onPass, State.onDisp, awaitedStarted_syncDone]
    rfl
  case handover =>
    rw [begins (chooseItem_control (i := .handover s.rc.epoch) (sendingCondition_iff.2 sends)
      (by simp [armedControl, begun, done, handover])), startItem, joinInFlight_spec]
    rfl
  case word =>
    have law' := journalLaw_started (r := none) law chosen rfl rfl
    have next := startNext_chosen chosen
    rw [startItem_word] at next
    rw [next]
    generalize joined : joinInFlight (.journal (.word k f d m)) none s = u at law' ⊢
    rw [joinInFlight_spec] at joined
    subst joined
    refine ⟨by rw [close_link]; rfl, ?_, ?_, by rw [close_disp]; rfl, by rw [close_rts]; rfl, by rw [close_pass]; rfl,
      by rw [close_rc]; rfl, by rw [close_apply]; rfl, by rw [close_mem]; rfl⟩
    · rw [JournalLaw, close_disp, close_journals]
      exact law'
    · rw [close_journals]
      exact markSent_entries _ _
  case block =>
    obtain ⟨sends, -, free⟩ := chooseItem_eq_some.1 chosen
    obtain ⟨r, free⟩ := Option.ne_none_iff_exists'.1 (free rfl)
    obtain ⟨unused, lowest⟩ := freeReadout_eq_some.1 free
    refine ⟨_, r, rfl, sendingCondition_iff.1 sends, unused, lowest, ?_⟩
    have law' := journalLaw_started (r := some r) (u := occupy r (.block k f) s) law chosen rfl rfl
    rw [startNext_chosen chosen, startItem_block free]
    generalize joined : joinInFlight (.journal (.block k f b)) (some r) (occupy r (.block k f) s) = u at law' ⊢
    rw [joinInFlight_spec] at joined
    subst joined
    refine ⟨by rw [close_link]; rfl, ?_, ?_, by rw [close_journals]; rfl, by rw [close_disp]; rfl, by rw [close_rts]; rfl,
      by rw [close_pass]; rfl, by rw [close_rc]; rfl, by rw [close_apply]; rfl, by rw [close_mem]; rfl⟩
    · rw [JournalLaw, close_disp, close_journals]
      exact law'
    · rw [close_journals]
      exact markSent_entries _ _
  case full =>
    have needless {c : Choice} (chosen : chooseItem s = some c) (needs : c.needsReadout = true) : False :=
      (chooseItem_eq_some.1 chosen).2.2 needs (freeReadout_eq_none.2 full)
    exact ⟨fun k f b chosen => needless chosen rfl, fun k i chosen => needless chosen rfl⟩
  case started =>
    obtain ⟨sends, -, free⟩ := chooseItem_eq_some.1 chosen
    obtain ⟨r, free⟩ := Option.ne_none_iff_exists'.1 (free rfl)
    obtain ⟨unused, lowest⟩ := freeReadout_eq_some.1 free
    obtain ⟨begun, done, handover⟩ := armedControl_eq_none.1 (unarmed_of_chosen chosen nofun)
    obtain ⟨w, window, found, journals, before⟩ := record_of_chosen chosen
    obtain ⟨v, window', hi, dirty⟩ := dirty_of_searchWindow found
    cases window.symm.trans window'
    refine ⟨_, w, r, rfl, window, hi, dirty, sendingCondition_iff.1 sends, begun, done, handover, journals, before,
      fun pointer => ((searchWindow_eq_some window pointer).1 found).2.2, unused, lowest, ?_⟩
    rw [begins chosen, startItem_record free window dirty]
  case none => rw [close_unreported, startNext, none]
end

section
open Sys2Proof Sys2Proof.Machine
/-! NAK_RECEIVED: the go-back, with everything it changes (R43, R59, R67, R68). -/

namespace Sys2Proof.Machine

variable {q : SeqNo} {s : State}

/-! ## A frame where no frame of its kind is taken (R81, R92) -/

theorem passFrame_off (h : s.link.state = .off) : passFrame s = s := if_neg (by rw [h]; exact nofun)

theorem passFrame_train (h : s.link.state = .train) : passFrame s = s.onLink fun l => { l with alignCount := 0 } := if_pos h

theorem not_checksFrames_off (h : s.link.state = .off) : ¬ checksFrames s.link = true := by simp [checksFrames, h]

theorem not_checksFrames_train (h : s.link.state = .train) (early : s.link.aligned = false) :
    ¬ checksFrames s.link = true := by simp [checksFrames, h, early]

theorem checksFrames_up (h : s.link.state = .up) : checksFrames s.link = true := by simp [checksFrames, h]

/-! ## The go-back -/

theorem restartAckTimer_spec (s : State) : restartAckTimer s =
    { s with disp := { s.disp with ackTimer := if s.disp.inFlight = [] then none else some 0 } } := by
  simp only [restartAckTimer, State.onDisp, List.isEmpty_iff]

/-- Everything a go-back to the number `q` changes, where `q` is that of entry `n` of the list (R59, R67, R68). -/
theorem goBackFrom_spec {n : Nat} (place : seqAhead (oldestSeq s) q = n) (sent : n < transmittedCount s.disp) :
    ∃ x a c m, goBackFrom q s =
      { s with
        rts := (recordsGoneBack (s.disp.inFlight.drop n) s).rts
        journals :=
          { s.journals with queue := markSent (journalsInFlight (s.disp.inFlight.take n)) s.journals.queue }
        disp :=
          { s.disp with
            inFlight := s.disp.inFlight.take n
            readouts := x
            syncBeginArm := s.disp.syncBeginArm || (s.disp.inFlight.drop n).any InFlight.sendsSyncBegin
            syncDoneArm := s.disp.syncDoneArm || (s.disp.inFlight.drop n).any InFlight.sendsSyncDone
            handoverArm := s.disp.handoverArm || (s.disp.inFlight.drop n).any InFlight.sendsHandover
            ackTimer := if s.disp.inFlight.take n = [] then none else some 0 }
        pass := { s.pass with awaited := a }
        link := { s.link with nextSeq := q, sending := c }
        draws := m } ∧
      ((∀ f b, s.link.sending = some ⟨.sequenced f, b⟩ → ∀ y ∈ s.disp.inFlight.drop n, y.seq ≠ f.seq) →
        c = s.link.sending) ∧
      ∀ f b, s.link.sending = some ⟨.sequenced f, b⟩ → (∃ y ∈ s.disp.inFlight.drop n, y.seq = f.seq) →
        c = none ∨ c = some ⟨.sequenced f, true⟩ := by
  subst place
  have back : goBackFrom q s = _ := if_pos sent
  generalize seqAhead (oldestSeq s) q = n at back ⊢
  obtain ⟨x, a, gone⟩ := entriesGoneBack_spec (s.disp.inFlight.drop n)
    (s.onDisp fun d => { d with inFlight := d.inFlight.take n })
  have store : (recordsGoneBack (s.disp.inFlight.drop n) (s.onDisp fun d => { d with inFlight := d.inFlight.take n })).rts =
      (recordsGoneBack (s.disp.inFlight.drop n) s).rts := recordsGoneBack_congr _ rfl rfl
  obtain ⟨c, m, cut, spared, cuts⟩ := cutSending_spec (s.disp.inFlight.drop n)
    (remarkSent (entriesGoneBack (s.disp.inFlight.drop n) (s.onDisp fun d => { d with inFlight := d.inFlight.take n })))
  rw [restartAckTimer_spec, cut, gone, store] at back
  rw [gone] at spared cuts
  exact ⟨x, a, c, m, back, spared, cuts⟩

/-- A number that is not among the transmitted ones changes nothing (R67). -/
theorem goBackFrom_none (unsent : transmittedCount s.disp ≤ seqAhead (oldestSeq s) q) : goBackFrom q s = s :=
  if_neg (Nat.not_lt.2 unsent)

/-- The records that go back are those in flight, so that they become DIRTY, and keep their marks (R43). -/
theorem tagAt_goneBack {l : List InFlight} (law : FlightLaw s) (inFlight : ∀ e ∈ l, e ∈ s.disp.inFlight) (m : Nat) :
    (tagAt (recordsGoneBack l s).rts m).state =
        (if m ∈ l.filterMap (entryTag s.windows) then .dirty else (tagAt s.rts m).state) ∧
      (tagAt (recordsGoneBack l s).rts m).covered = (tagAt s.rts m).covered := by
  rw [tagAt_recordsGoneBack l law.form]
  split
  · next gone =>
    obtain ⟨e, he, tag⟩ := List.mem_filterMap.1 gone
    exact ⟨afterGoBack_family (law.flying m (List.mem_filterMap.2 ⟨e, inFlight e he, tag⟩)), rfl⟩
  · exact ⟨rfl, rfl⟩

theorem transmittedCount_le (d : Dispatcher) : transmittedCount d ≤ d.inFlight.length := List.length_filter_le ..

/-- A NAK between frames in UP takes its go-back with the frame counted (R67, R92). -/
theorem receiveNak_up (up : s.link.state = .up) (between : s.link.incoming = none) :
    receiveNak q s = goBackFrom q (s.linked s.frameCounted) := by
  rw [receiveNak, if_pos (checksFrames_up up), if_pos up, countFrame_between between]
  rfl

end Sys2Proof.Machine

/-- Settles O37: outside UP the frame at most counts, and in UP the go-back is that of `goBackFrom_spec`. -/
theorem nakGoesBack : Obligations.NakGoesBack := by
  intro q s between
  refine ⟨fun down checks => ⟨_, rfl, ?_⟩, fun off => ⟨_, rfl, ?_⟩, fun train early => ⟨_, rfl, ?_⟩,
    fun up => ⟨fun sent flight _ journal => ⟨_, rfl, ?_⟩, fun unsent => ⟨_, rfl, ?_⟩⟩⟩
  · rw [close_unreported, receiveNak, if_pos checks, if_neg down, countFrame_between between]
    rfl
  · rw [close_unreported, receiveNak, if_neg (not_checksFrames_off off), passFrame_off off]
  · rw [close_unreported, receiveNak, if_neg (not_checksFrames_train train early), passFrame_train train]
    rfl
  · generalize place : (q - oldestSeq s).toNat = n at sent ⊢
    obtain ⟨x, a, c, m, back, spared, cuts⟩ := goBackFrom_spec (s := s.linked s.frameCounted) (q := q) place sent
    rw [receiveNak_up up between, back]
    have store : (recordsGoneBack ((s.linked s.frameCounted).disp.inFlight.drop n) (s.linked s.frameCounted)).rts =
        (recordsGoneBack (s.disp.inFlight.drop n) s).rts := recordsGoneBack_congr _ rfl rfl
    have left : s.disp.inFlight.take n = [] ↔ n = 0 := by
      have length := transmittedCount_le s.disp
      rw [List.take_eq_nil_iff]
      exact ⟨fun h => h.resolve_right fun empty => by simp [empty] at length; omega, .inl⟩
    simp only [close_disp, close_link, close_rts, close_journals, close_rc, close_apply, close_mem, close_windows]
    refine ⟨rfl, rfl, cuts, spared, ?_, fun k => ?_, markSent_entries _ _, ?_, rfl, rfl, rfl, rfl, rfl, rfl, rfl, rfl⟩
    · exact if_congr left rfl rfl
    · rw [store]
      exact tagAt_goneBack flight (fun e he => List.mem_of_mem_drop he) k
    · rw [JournalLaw, close_disp, close_journals]
      exact ((journalLaw_iff s).1 journal).goneBack n
  · rw [close_unreported, receiveNak_up up between, goBackFrom_none (s := s.linked s.frameCounted) unsent]
    rfl
end

section
open Sys2Proof Sys2Proof.Machine
/-! The acknowledgement of the oldest in-flight entries, with everything it changes (R42, R60, R66, R72, R76, R127). -/

namespace Sys2Proof.Machine

variable {s t u : State} {e : InFlight} {l m : List InFlight}

/-! ## One entry -/

/-- The entry is the copy-last block of slot `k` (R76). -/
def InFlight.copiesLast (k : Slot) (e : InFlight) : Bool :=
  match e.item with
  | .journal (.block j _ true) => decide (j = k)
  | _ => false

/-- The acknowledgement of the entry ends the sync: it is the SYNC_DONE awaited (R127). -/
def PassEngine.endedBy (p : PassEngine) (e : InFlight) : Prop :=
  p.phase = .completing ∧ ∃ g, e.item = .control (.syncDone g) ∧ p.awaited = .started e.seq

/-- The acknowledgement of the entry ends the handoff: it is the HANDOVER, in closing (R148). -/
def State.handsOver (s : State) (e : InFlight) : Prop :=
  (s.rc.role = .handoff ∧ s.rc.closing = true) ∧ ∃ x, e.item = .control (.handover x)

/-- `t` is `s` with the entries `l` acknowledged, none of which ends the handoff (R66). What becomes of the Dispatcher but
its arm is not said here. -/
structure Resolved (l : List InFlight) (s t : State) : Prop where
  frame  : ∃ r j p c d, t = { s with rts := r, journals := j, pass := p, csu := c, disp := d }
  arm    : t.disp.handoverArm = s.disp.handoverArm
  queue  : t.journals.queue = s.journals.queue.drop (l.filterMap InFlight.journalEntry).length
  form   : TagForm t
  tags   : ∀ n, tagAt t.rts n =
    if n ∈ l.filterMap (entryTag s.windows) then tagAfter .acknowledgement (tagAt s.rts n) else tagAt s.rts n
  states : ∀ k : Slot, t.journals.states[k] =
    if isCopying s.journals.states[k] = true ∧ l.any (·.copiesLast k) = true then some .inStep else s.journals.states[k]
  ended  : (∃ e ∈ l, s.pass.endedBy e) → t.pass = { s.pass with phase := .none, awaited := .none } ∧
    t.csu.pendingSet.getLsbD Notice.syncDone.bit = true
  going  : (¬ ∃ e ∈ l, s.pass.endedBy e) → t.pass = s.pass ∧ t.csu.pendingSet = s.csu.pendingSet

/-- The two copies of one window that end are one end (R76). -/
theorem inStep_twice (x : Option JournalState) (a b : Bool) :
    (if isCopying (if isCopying x = true ∧ a = true then some .inStep else x) = true ∧ b = true then some .inStep
      else if isCopying x = true ∧ a = true then some .inStep else x) =
    if isCopying x = true ∧ (a || b) = true then some .inStep else x := by
  by_cases copying : isCopying x = true
  · cases a with
    | true =>
      have ends : (if isCopying x = true ∧ true = true then some .inStep else x) = some JournalState.inStep :=
        if_pos ⟨copying, rfl⟩
      rw [ends, if_neg (by simp [isCopying]), Bool.true_or, ends]
    | false => simp [copying]
  · simp only [copying, false_and, if_false, Bool.false_eq_true]

namespace Resolved

theorem rc (h : Resolved l s t) : t.rc = s.rc := by
  obtain ⟨r, j, p, c, d, rfl⟩ := h.frame
  rfl

theorem windows (h : Resolved l s t) : t.windows = s.windows := by
  obtain ⟨r, j, p, c, d, rfl⟩ := h.frame
  rfl

theorem link (h : Resolved l s t) : t.link = s.link := by
  obtain ⟨r, j, p, c, d, rfl⟩ := h.frame
  rfl

theorem mem (h : Resolved l s t) : t.mem = s.mem := by
  obtain ⟨r, j, p, c, d, rfl⟩ := h.frame
  rfl

theorem apply (h : Resolved l s t) : t.apply = s.apply := by
  obtain ⟨r, j, p, c, d, rfl⟩ := h.frame
  rfl

theorem outer (h : Resolved l s t) : t.outer = s.outer := by
  obtain ⟨r, j, p, c, d, rfl⟩ := h.frame
  rfl

/-- An entry whose acknowledgement does no more than leave the list. -/
theorem quiet {d : Dispatcher} (form : TagForm s) (arm : d.handoverArm = s.disp.handoverArm)
    (journal : l.filterMap InFlight.journalEntry = []) (tags : l.filterMap (entryTag s.windows) = [])
    (copies : ∀ k, l.any (·.copiesLast k) = false) (goes : ¬ ∃ e ∈ l, s.pass.endedBy e) :
    Resolved l s { s with disp := d } where
  frame := ⟨_, _, _, _, _, rfl⟩
  arm := arm
  queue := by rw [journal]; rfl
  form := form
  tags _ := by rw [tags]; rfl
  states k := by rw [copies k, if_neg (by simp)]
  ended ends := absurd ends goes
  going _ := ⟨rfl, rfl⟩

theorem none {d : Dispatcher} (form : TagForm s) (arm : d.handoverArm = s.disp.handoverArm) :
    Resolved [] s { s with disp := d } :=
  quiet form arm rfl rfl (fun _ => rfl) (by simp)

theorem trans (h : Resolved l s t) (h' : Resolved m t u) (once : ((l ++ m).filterMap (entryTag s.windows)).Nodup) :
    Resolved (l ++ m) s u where
  frame := by
    obtain ⟨r, j, p, c, d, rfl⟩ := h.frame
    obtain ⟨r', j', p', c', d', rfl⟩ := h'.frame
    exact ⟨r', j', p', c', d', rfl⟩
  arm := h'.arm.trans h.arm
  queue := by rw [h'.queue, h.queue, List.drop_drop, List.filterMap_append, List.length_append]
  form := h'.form
  tags n := by
    have apart : n ∈ l.filterMap (entryTag s.windows) → n ∉ m.filterMap (entryTag s.windows) := by
      rw [List.filterMap_append] at once
      exact fun hl hm => (List.disjoint_of_nodup_append once) hl hm
    rw [h'.tags, h.windows, h.tags, List.filterMap_append]
    simp only [List.mem_append]
    by_cases first : n ∈ l.filterMap (entryTag s.windows)
    · simp only [first, apart first, if_true, if_false, true_or]
    · simp only [first, if_false, false_or]
  states k := by
    rw [h'.states, h.states, List.any_append]
    exact inStep_twice _ _ _
  ended ends := by
    by_cases first : ∃ e ∈ l, s.pass.endedBy e
    · obtain ⟨pass, bit⟩ := h.ended first
      have past : ¬ ∃ e ∈ m, t.pass.endedBy e := by
        rw [pass]
        rintro ⟨_, _, phase, _⟩
        cases phase
      obtain ⟨pass', bits⟩ := h'.going past
      exact ⟨pass'.trans pass, by rw [bits]; exact bit⟩
    · obtain ⟨pass, -⟩ := h.going first
      rw [← pass]
      refine h'.ended ?_
      obtain ⟨e, he, holds⟩ := ends
      rw [pass]
      exact ⟨e, (List.mem_append.1 he).resolve_left fun hl => first ⟨e, hl, holds⟩, holds⟩
  going goes := by
    obtain ⟨pass, bits⟩ := h.going fun ⟨e, he, holds⟩ => goes ⟨e, List.mem_append_left _ he, holds⟩
    obtain ⟨pass', bits'⟩ := h'.going fun ⟨e, he, holds⟩ => goes ⟨e, List.mem_append_right _ he, by rw [← pass]; exact holds⟩
    exact ⟨pass'.trans pass, bits'.trans bits⟩

end Resolved

theorem not_endedBy {i : Item} (hi : e.item = i) (apart : ∀ g, i ≠ .control (.syncDone g)) :
    ¬ ∃ x ∈ [e], s.pass.endedBy x := by
  simp only [List.mem_singleton, exists_eq_left]
  rintro ⟨_, g, done, _⟩
  exact apart g (hi.symm.trans done)

/-- The acknowledgement of a record moves its tag, and no other (R42). -/
theorem recordAcked_resolved {k : Slot} {i : Nat} (form : TagForm s) (hi : e.item = .record k i) :
    Resolved [e] s (recordAcked k i s) := by
  have goes := not_endedBy (s := s) hi (by simp)
  have journal : [e].filterMap InFlight.journalEntry = [] := by simp [InFlight.journalEntry, hi]
  have copies (j : Slot) : [e].any (·.copiesLast j) = false := by simp [InFlight.copiesLast, hi]
  unfold recordAcked
  cases hw : recordAt s.windows k with
  | none =>
    simp only
    exact Resolved.quiet form rfl journal (by simp [entryTag, hi, hw]) copies goes
  | some w =>
    have tag : [e].filterMap (entryTag s.windows) = [w.tagBase + i] := by simp [entryTag, hi, hw]
    have moved (x : Nat) : Resolved [e] s ((tagEvent .acknowledgement (w.tagBase + i) s).onRts fun r =>
        { r with outstanding := x }) := by
      refine ⟨⟨_, _, _, _, _, rfl⟩, rfl, by rw [journal]; rfl, tagForm_tagEvent .acknowledgement (w.tagBase + i) form,
        fun n => ?_, fun j => by rw [copies j, if_neg (by simp)]; rfl, fun ends => absurd ends goes, fun _ => ⟨rfl, rfl⟩⟩
      rw [tag]
      by_cases same : n = w.tagBase + i
      · rw [if_pos (by simp [same]), same]
        exact tagAt_tagEvent_same .acknowledgement (w.tagBase + i) form
      · rw [if_neg (by simp [same])]
        exact tagAt_tagEvent_other .acknowledgement form same
    simp only
    split
    · exact moved _
    · exact moved _

/-- The acknowledgement of a JOURNAL entry takes the front of the queue, and that of a copy-last block ends the copy
(R72, R76). -/
theorem journalAcked_resolved {x : JournalEntry} (form : TagForm s) (hi : e.item = .journal x) :
    Resolved [e] s (entryAcked e s) := by
  have goes := not_endedBy (s := s) hi (by simp)
  have tag : [e].filterMap (entryTag s.windows) = [] := by simp [entryTag, hi]
  have taken (t : State) (v : Vector (Option JournalState) 8)
      (ht : t = { s with journals := { s.journals with queue := s.journals.queue.tail, states := v } })
      (hv : ∀ j : Slot, v[j] =
        if isCopying s.journals.states[j] = true ∧ [e].any (·.copiesLast j) = true then some .inStep
        else s.journals.states[j]) : Resolved [e] s t := by
    subst ht
    refine ⟨⟨_, _, _, _, _, rfl⟩, rfl, ?_, form, fun n => by rw [tag]; rfl, hv, fun ends => absurd ends goes,
      fun _ => ⟨rfl, rfl⟩⟩
    simp [InFlight.journalEntry, hi]
  have stands {j : Slot} (h : ¬ [e].any (·.copiesLast j) = true) : s.journals.states[j] =
      if isCopying s.journals.states[j] = true ∧ [e].any (·.copiesLast j) = true then some .inStep
      else s.journals.states[j] := (if_neg fun x => h x.2).symm
  unfold entryAcked
  rw [hi]
  cases x with
  | word k f d m => exact taken _ _ rfl fun j => stands (by simp [InFlight.copiesLast, hi])
  | block k f last =>
    cases last with
    | false => exact taken _ _ rfl fun j => stands (by simp [InFlight.copiesLast, hi])
    | true =>
      have copies (j : Slot) : [e].any (·.copiesLast j) = decide (k = j) := by simp [InFlight.copiesLast, hi]
      show Resolved [e] s (copyAcked k (dropFront s))
      unfold copyAcked
      split
      · next copying =>
        refine taken _ (s.journals.states.set k (some .inStep)) rfl fun j => ?_
        rw [copies]
        by_cases same : k = j
        · subst same
          have copying : isCopying s.journals.states[k] = true := copying
          rw [if_pos ⟨copying, decide_eq_true rfl⟩]
          exact Vector.getElem_set_self ..
        · have apart : k.val ≠ j.val := fun h => same (Fin.ext h)
          simp [same, Vector.getElem_set_ne, apart]
      · next copied =>
        refine taken _ _ rfl fun j => ?_
        by_cases same : k = j
        · subst same
          exact (if_neg fun x => copied x.1).symm
        · exact stands (by simp [copies, same])

/-- The acknowledgement of a SYNC_DONE ends the sync that awaits it (R127). -/
theorem syncDoneAcked_resolved {g : Gen} (form : TagForm s) (hi : e.item = .control (.syncDone g)) :
    Resolved [e] s (syncDoneAcked e.seq s) := by
  have journal : [e].filterMap InFlight.journalEntry = [] := by simp [InFlight.journalEntry, hi]
  have copies (j : Slot) : [e].any (·.copiesLast j) = false := by simp [InFlight.copiesLast, hi]
  have tag : [e].filterMap (entryTag s.windows) = [] := by simp [entryTag, hi]
  unfold syncDoneAcked
  split
  · next ends =>
    refine ⟨⟨_, _, _, _, _, rfl⟩, rfl, by rw [journal]; rfl, form, fun n => by rw [tag]; rfl,
      fun k => by rw [copies k, if_neg (by simp)]; rfl, fun _ => ⟨rfl, (pends_raised .syncDone _).bit⟩, fun goes => ?_⟩
    exact absurd ⟨e, by simp, ends.1, g, hi, ends.2⟩ goes
  · next goes =>
    refine Resolved.quiet form rfl journal tag copies ?_
    simp only [List.mem_singleton, exists_eq_left]
    exact fun ⟨phase, _, _, awaited⟩ => goes ⟨phase, awaited⟩

/-- The acknowledgement of an entry that does not end the handoff. -/
theorem entryAcked_resolved (form : TagForm s) (stays : ¬ s.handsOver e) : Resolved [e] s (entryAcked e s) := by
  have control (c : ControlItem) (hi : e.item = .control c) (apart : ∀ g, c ≠ .syncDone g) : Resolved [e] s s :=
    Resolved.quiet form rfl (by simp [InFlight.journalEntry, hi]) (by simp [entryTag, hi])
      (by simp [InFlight.copiesLast, hi]) (not_endedBy hi (by simpa using apart))
  cases hi : e.item with
  | record k i =>
    have event : entryAcked e s = recordAcked k i s := by rw [entryAcked, hi]
    rw [event]
    exact recordAcked_resolved form hi
  | journal x => exact journalAcked_resolved form hi
  | control c =>
    unfold entryAcked
    rw [hi]
    cases c with
    | syncBegin => exact control _ hi nofun
    | syncDone g => exact syncDoneAcked_resolved form hi
    | handover x =>
      have goesOn : ¬ (s.rc.role = .handoff ∧ s.rc.closing = true) := fun ends => stays ⟨ends, x, hi⟩
      show Resolved [e] s (if _ then _ else s)
      rw [if_neg goesOn]
      exact control _ hi nofun

/-- What the acknowledgement of such an entry can change. -/
theorem entryAcked_frame (stays : ¬ s.handsOver e) : ∃ r j p q,
    entryAcked e s = { s with rts := r, journals := j, pass := p, csu := { s.csu with pendingSet := q } } := by
  unfold entryAcked
  split
  · unfold recordAcked
    split
    · simp only
      split <;> exact ⟨_, _, _, _, rfl⟩
    · exact ⟨_, _, _, _, rfl⟩
  · exact ⟨_, _, _, _, rfl⟩
  · unfold copyAcked
    (repeat' split) <;> exact ⟨_, _, _, _, rfl⟩
  · exact ⟨_, _, _, _, rfl⟩
  · unfold syncDoneAcked
    split <;> exact ⟨_, _, _, _, rfl⟩
  · next x hi =>
    rw [if_neg fun ends => stays ⟨ends, x, hi⟩]
    exact ⟨_, _, _, _, rfl⟩

theorem entryAcked_disp (stays : ¬ s.handsOver e) : (entryAcked e s).disp = s.disp := by
  obtain ⟨r, j, p, q, frame⟩ := entryAcked_frame stays
  rw [frame]

/-! ## The oldest entries -/

/-- The oldest entry has left the list, with the readout slot it held (R60, R66). -/
def State.oldestLeft (e : InFlight) (rest : List InFlight) (s : State) : State :=
  s.onDisp fun d => abandonReadout e { d with inFlight := rest }

theorem oldestLeft_spec (e : InFlight) (rest : List InFlight) (s : State) :
    ∃ x, s.oldestLeft e rest = { s with disp := { s.disp with inFlight := rest, readouts := x } } := by
  obtain ⟨x, left⟩ := abandonReadout_spec e { s.disp with inFlight := rest }
  exact ⟨x, by rw [State.oldestLeft, State.onDisp, left]⟩

theorem acknowledge_empty (n : Nat) (h : s.disp.inFlight = []) : acknowledge n s = s := by
  cases n with
  | zero => rfl
  | succ n => rw [acknowledge, h]

theorem acknowledge_cons {rest : List InFlight} (n : Nat) (h : s.disp.inFlight = e :: rest) :
    acknowledge (n + 1) s = acknowledge n (entryAcked e (s.oldestLeft e rest)) := by
  rw [acknowledge, h]
  rfl

/-- The acknowledgement of `n` entries, none of which ends the handoff. -/
theorem acknowledge_resolved {n : Nat} (form : TagForm s)
    (once : ((s.disp.inFlight.take n).filterMap (entryTag s.windows)).Nodup)
    (stays : ∀ e ∈ s.disp.inFlight.take n, ¬ s.handsOver e) :
    Resolved (s.disp.inFlight.take n) s (acknowledge n s) ∧
      (acknowledge n s).disp.inFlight = s.disp.inFlight.drop n := by
  induction n generalizing s with
  | zero => exact ⟨Resolved.none form rfl, rfl⟩
  | succ n ih =>
    cases hf : s.disp.inFlight with
    | nil =>
      rw [acknowledge_empty _ hf]
      exact ⟨Resolved.none form rfl, hf⟩
    | cons e rest =>
      rw [hf, List.take_succ_cons] at once stays
      have alone : ([e].filterMap (entryTag s.windows)).Nodup :=
        once.sublist ((List.sublist_append_left [e] (rest.take n)).filterMap _)
      have others : ((rest.take n).filterMap (entryTag s.windows)).Nodup :=
        once.sublist ((List.sublist_cons_self e _).filterMap _)
      obtain ⟨x, left⟩ := oldestLeft_spec e rest s
      have leaves : Resolved [] s (s.oldestLeft e rest) := by
        rw [left]
        exact Resolved.none form rfl
      have here : ¬ (s.oldestLeft e rest).handsOver e := by
        rw [left]
        exact stays e (List.mem_cons_self ..)
      have acked := leaves.trans (entryAcked_resolved leaves.form here) alone
      have flight : (entryAcked e (s.oldestLeft e rest)).disp.inFlight = rest := by rw [entryAcked_disp here, left]
      rw [acknowledge_cons n hf, List.take_succ_cons, List.drop_succ_cons]
      have later : ∀ y ∈ rest.take n, ¬ (entryAcked e (s.oldestLeft e rest)).handsOver y := by
        intro y hy
        rw [State.handsOver, acked.rc]
        exact stays y (List.mem_cons_of_mem _ hy)
      have next := ih (s := entryAcked e (s.oldestLeft e rest)) acked.form (by rw [flight, acked.windows]; exact others)
        (by rw [flight]; exact later)
      rw [flight] at next
      exact ⟨acked.trans next.1 once, next.2⟩

end Sys2Proof.Machine
end

section
open Sys2Proof Sys2Proof.Machine
/-! ACK_RECEIVED: the number resolved, the convergence it brings, and the success of a handoff (R53, R66, R147, R148). -/

namespace Sys2Proof.Machine

variable {b s t u w : State} {a : SeqNo} {n : Nat}

/-! ## The number (R66) -/

/-- An ACK between frames in UP has its A resolved with the frame counted (R66, R92). -/
theorem receiveAck_up (up : s.link.state = .up) (between : s.link.incoming = none) :
    receiveAck a s = resolveApplied a (s.linked s.frameCounted) := by
  rw [receiveAck, if_pos (checksFrames_up up), if_pos up, countFrame_between between]
  rfl

theorem resolveApplied_sent (place : seqAhead (oldestSeq s) a = n) (positive : 1 ≤ n) (sent : n ≤ transmittedCount s.disp) :
    resolveApplied a s = judgeConverged (restartAckTimer (acknowledge n s)) := by
  subst place
  exact if_pos ⟨positive, sent⟩

/-- The two distances of two different numbers are the whole circle (R65). -/
theorem seqAhead_back {x y : SeqNo} (apart : 1 ≤ seqAhead x y) : seqAhead y x = 65536 - seqAhead x y := by
  unfold seqAhead at *
  bv_omega

/-- A number at the oldest entry or before it resolves nothing. -/
theorem resolveApplied_before (place : seqAhead (oldestSeq s) a = n)
    (before : n = 0 ∨ transmittedCount s.disp < n ∧ 32769 ≤ n) : resolveApplied a s = s := by
  have sent : ¬ (1 ≤ n ∧ n ≤ transmittedCount s.disp) := by omega
  have within : n < 65536 := place ▸ (a - oldestSeq s).isLt
  subst place
  rw [resolveApplied, if_neg sent]
  rcases before with same | ⟨-, far⟩
  · rw [if_pos same]
  · have back := seqAhead_back (x := oldestSeq s) (y := a) (by omega)
    rw [if_neg (by omega), if_pos (by omega)]

/-- Any other number is a protocol error (log entry 10). -/
theorem resolveApplied_error (place : seqAhead (oldestSeq s) a = n) (beyond : transmittedCount s.disp < n)
    (near : n ≤ 32768) :
    resolveApplied a s = s.onLink fun l => { l with protocolErrors := saturatingInc l.protocolErrors } := by
  have sent : ¬ (1 ≤ n ∧ n ≤ transmittedCount s.disp) := by omega
  subst place
  have back := seqAhead_back (x := oldestSeq s) (y := a) (by omega)
  rw [resolveApplied, if_neg sent, if_neg (by omega), if_neg (by omega)]

/-! ## Convergence (R147) -/

/-- A HANDOFF part before closing has converged. -/
def State.doneHandingOff (s : State) : Prop :=
  (s.rc.role = .handoff ∧ s.rc.closing = false) ∧ dirtyTotal s.rts = 0 ∧ flightTotal s.rts = 0 ∧ s.journals.queue = [] ∧
    s.pass.phase = .none ∧ ∀ k : Slot, s.journals.states[k] = none ∨ s.journals.states[k] = some .inStep

theorem judgeConverged_spec (s : State) :
    ∃ c x, judgeConverged s = { s with rc := c, disp := { s.disp with handoverArm := x } } ∧
      (¬ s.doneHandingOff → c = s.rc ∧ x = s.disp.handoverArm) ∧
      (s.doneHandingOff → c = { s.rc with closing := true, handoff := none } ∧ x = true) := by
  have enters : s.rc.role = .handoff ∧ s.rc.closing = false ∧ converged s = true ↔ s.doneHandingOff := by
    rw [converged_iff, State.doneHandingOff, and_assoc]
  unfold judgeConverged
  split
  · next done => exact ⟨_, _, rfl, fun idle => absurd (enters.1 done) idle, fun _ => ⟨rfl, rfl⟩⟩
  · next idle => exact ⟨s.rc, s.disp.handoverArm, rfl, fun _ => ⟨rfl, rfl⟩, fun done => absurd (enters.2 done) idle⟩

/-! ## The end of the step -/

/-- An event that leaves a stalled write captured and queued, or a part that suppresses, leaves all but the bus path as
it stands at the end of the step (R23, R27). -/
theorem finish_keeps_or_suppresses (outer : w.outer = s.outer) (stall : StallLaw s)
    (stands : (w.rc = s.rc ∧ ∀ x, queuesWrites (stallState s x) = true → queuesWrites (stallState w x) = true) ∨
      suppresses w.rc = true) :
    ∃ p, (finish b w).unreported = ({ w with bpt := p } : State).unreported := by
  by_cases stalled : ∃ x k, w.bpt.held = .stall x k
  · obtain ⟨x, k, held⟩ := stalled
    rcases stands with ⟨rc, queued⟩ | suppressed
    · obtain ⟨-, captured, writes⟩ := stall x k ((stalled_of_outer outer).1 held)
      exact ⟨w.bpt, finish_stands held (by rw [rc]; exact captured) (queued x writes)⟩
    · exact ⟨_, finish_suppressed held suppressed⟩
  · exact ⟨w.bpt, finish_unreported b w fun x k held => stalled ⟨x, k, held⟩⟩

/-- The end of a copy leaves the writes to its window queued (R76). -/
theorem Resolved.queuesWrites {l : List InFlight} (h : Resolved l s t) (x : Access)
    (queued : queuesWrites (stallState s x) = true) : queuesWrites (stallState t x) = true := by
  unfold stallState stallSlot at *
  rw [h.windows]
  cases slot : slotOf s.windows x.addr.toNat with
  | none =>
    rw [slot] at queued
    exact queued
  | some k =>
    rw [slot] at queued
    simp only at queued ⊢
    rw [h.states]
    split
    · rfl
    · exact queued

/-! ## The success of a handoff (R148) -/

/-- The entries up to the HANDOVER acknowledged: the handoff has succeeded on a state with the same Role Controller, and
the list is empty behind it. -/
theorem acknowledge_handsOver (closing : s.rc.role = .handoff ∧ s.rc.closing = true)
    (runs : s.csu.running = some .switchover) (handed : ∃ x ∈ s.disp.inFlight.take n, ∃ y, x.item = .control (.handover y)) :
    ∃ u, acknowledge n s = handoffSucceeds u ∧ u.rc = s.rc ∧ u.link = s.link ∧ u.csu.running = s.csu.running ∧
      u.outer = s.outer := by
  induction n generalizing s with
  | zero =>
    obtain ⟨x, hx, -⟩ := handed
    cases hx
  | succ n ih =>
    cases hf : s.disp.inFlight with
    | nil =>
      rw [hf] at handed
      obtain ⟨x, hx, -⟩ := handed
      cases hx
    | cons e rest =>
      rw [acknowledge_cons n hf]
      obtain ⟨x, left⟩ := oldestLeft_spec e rest s
      by_cases ends : ∃ y, e.item = .control (.handover y)
      · obtain ⟨y, item⟩ := ends
        have succeeds : entryAcked e (s.oldestLeft e rest) = handoffSucceeds (s.oldestLeft e rest) := by
          rw [entryAcked, item, left]
          exact if_pos closing
        have emptied : (handoffSucceeds (s.oldestLeft e rest)).disp.inFlight = [] := by
          obtain ⟨v, d, h, c, same, -⟩ := handoffSucceeds_eq (s := s.oldestLeft e rest) runs
          rw [same]
          rfl
        exact ⟨s.oldestLeft e rest, by rw [succeeds, acknowledge_empty n emptied], rfl, rfl, rfl, rfl⟩
      · have stays : ¬ (s.oldestLeft e rest).handsOver e := fun hands => ends hands.2
        obtain ⟨r, j, p, q, frame⟩ := entryAcked_frame stays
        have later : ∃ x ∈ (entryAcked e (s.oldestLeft e rest)).disp.inFlight.take n, ∃ y, x.item = .control (.handover y) := by
          rw [hf, List.take_succ_cons] at handed
          obtain ⟨x, hx, item⟩ := handed
          rw [entryAcked_disp stays, left]
          exact ⟨x, (List.mem_cons.1 hx).resolve_left fun same => ends (same ▸ item), item⟩
        obtain ⟨u, done, rc, link, running, outer⟩ := ih (s := entryAcked e (s.oldestLeft e rest))
          (by rw [frame]; exact closing) (by rw [frame]; exact runs) later
        rw [frame] at rc link running outer
        exact ⟨u, done, rc, link, running, outer⟩

/-- What the success of a handoff in UP leaves (R138, R148). -/
structure HandedOver (s w : State) : Prop where
  link       : w.link = s.link
  inFlight   : w.disp.inFlight = []
  queue      : w.journals.queue = []
  rts        : w.rts = { tags := [], pointers := Vector.replicate 8 0, outstanding := 0 }
  refreshing : w.pass.refreshing = false
  rc         : w.rc = { s.rc with
    role := .standby, closing := false, handoff := none, sync := .inSync, claimOut := false, dual := .stopped
    epoch := s.handedEpoch }
  running    : w.csu.running = none
  result     : w.csu.result = switchoverEnds .ok
  outer      : w.outer = s.outer

/-- The acknowledgement of the HANDOVER in closing ends the handoff with success. -/
theorem resolveApplied_handsOver (place : seqAhead (oldestSeq s) a = n) (positive : 1 ≤ n) (sent : n ≤ transmittedCount s.disp)
    (closing : s.rc.role = .handoff ∧ s.rc.closing = true) (runs : s.csu.running = some .switchover)
    (up : s.link.state = .up)
    (handed : ∃ x ∈ s.disp.inFlight.take n, ∃ y, x.item = .control (.handover y)) :
    HandedOver s (resolveApplied a s) := by
  obtain ⟨u, done, rc, link, running, outer⟩ := acknowledge_handsOver closing runs handed
  have outer' := (handoffSucceeds_outer u).trans outer
  obtain ⟨v, d, x, c, same, ended, result, -⟩ := handoffSucceeds_eq (running.trans runs)
  have unjudged : judgeConverged (restartAckTimer (handoffSucceeds u)) = restartAckTimer (handoffSucceeds u) := by
    rw [same]
    exact if_neg nofun
  have epoch : u.handedEpoch = s.handedEpoch := by rw [State.handedEpoch, rc, link, State.handedEpoch]
  rw [resolveApplied_sent place positive sent, done, unjudged]
  rw [same] at outer' ⊢
  refine ⟨?_, rfl, rfl, rfl, rfl, ?_, ended, result, outer'⟩
  · exact (up_seen ((congrArg (·.state) link).trans up)).trans link
  · rw [← epoch, ← rc]
    rfl

end Sys2Proof.Machine
end

section
open Sys2Proof Sys2Proof.Machine
/-! The settling of O36: the step of ACK_RECEIVED by the link state and the number. -/

namespace Sys2Proof.Machine

variable {s w : State} {a : SeqNo} {n : Nat}

theorem exec_ack (noRoom : stallHasRoom s = false) (event : receiveAck a s = w) :
    exec (.ackReceived a) s = .next (finish s w) :=
  congrArg Host.Outcome.next ((takeEvent_noRoom noRoom).trans (congrArg (finish s) event))

/-- Entries acknowledged that do not end the handoff: what the number leaves, with the convergence it may bring. -/
theorem resolveApplied_resolved (place : seqAhead (oldestSeq s) a = n) (positive : 1 ≤ n)
    (sent : n ≤ transmittedCount s.disp) (stays : ∀ e ∈ s.disp.inFlight.take n, ¬ s.handsOver e) (form : TagForm s)
    (listed : (entryTags s).Nodup) :
    ∃ v c d, Resolved (s.disp.inFlight.take n) s v ∧ resolveApplied a s = { v with rc := c, disp := d } ∧
      d.inFlight = s.disp.inFlight.drop n ∧ d.ackTimer = (if s.disp.inFlight.length ≤ n then none else some 0) ∧
      (¬ v.doneHandingOff → c = s.rc ∧ d.handoverArm = s.disp.handoverArm) ∧
      (v.doneHandingOff → c = { s.rc with closing := true, handoff := none } ∧ d.handoverArm = true) := by
  have once : ((s.disp.inFlight.take n).filterMap (entryTag s.windows)).Nodup :=
    listed.sublist ((List.take_sublist n s.disp.inFlight).filterMap _)
  obtain ⟨resolved, left⟩ := acknowledge_resolved form once stays
  obtain ⟨c, x, judged, idle, done⟩ := judgeConverged_spec (restartAckTimer (acknowledge n s))
  rw [restartAckTimer_spec] at judged idle done
  rw [resolveApplied_sent place positive sent, restartAckTimer_spec, judged]
  generalize acknowledge n s = v at *
  refine ⟨v, c, { v.disp with ackTimer := if v.disp.inFlight = [] then none else some 0, handoverArm := x }, resolved,
    rfl, left, ?_, fun h => ?_, fun h => ?_⟩
  · show (if v.disp.inFlight = [] then none else some 0) = _
    rw [left]
    exact if_congr List.drop_eq_nil_iff rfl rfl
  · obtain ⟨rc, arm⟩ := idle h
    exact ⟨rc.trans resolved.rc, arm.trans resolved.arm⟩
  · obtain ⟨rc, arm⟩ := done h
    exact ⟨by rw [rc, ← resolved.rc], arm⟩

theorem suppresses_closing {c : RoleController} (hr : c.role = .handoff) (hc : c.closing = true) : suppresses c = true := by
  simp [suppresses, hr, hc]

/-- A stalled write still stands at the end of the step, or closing has been entered and suppresses it. -/
theorem finish_resolved {l : List InFlight} {v b : State} {c : RoleController} {d : Dispatcher} (resolved : Resolved l s v)
    (stall : StallLaw s)
    (rc : c = s.rc ∨ s.rc.role = .handoff ∧ c = { s.rc with closing := true, handoff := none }) :
    ∃ p, (finish b { v with rc := c, disp := d }).unreported =
      ({ v with rc := c, disp := d, bpt := p } : State).unreported := by
  obtain ⟨_, _, _, _, _, frame⟩ := resolved.frame
  rcases rc with same | ⟨handoff, closes⟩
  · have outer : ({ v with rc := c, disp := d } : State).outer = s.outer := by rw [frame, same]; rfl
    exact finish_keeps_or_suppresses outer stall (.inl ⟨same, resolved.queuesWrites⟩)
  · have outer : ({ v with rc := c, disp := d } : State).outer = s.outer := by rw [frame, closes]; rfl
    exact finish_keeps_or_suppresses outer stall (.inr (by rw [closes]; exact suppresses_closing handoff rfl))

end Sys2Proof.Machine

/-- Settles O36: outside UP the frame at most counts; in UP the number is resolved by `resolveApplied_resolved`, by
`resolveApplied_handsOver` where it acknowledges the HANDOVER in closing, or not at all. -/
theorem appliedResolved : Obligations.AppliedResolved := by
  intro a s ⟨stall, noRoom⟩ between
  refine ⟨fun down checks => ?_, fun off => ?_, fun train early => ?_,
    fun up => ⟨fun positive sent stays flight journal => ?_, fun positive sent handoff closing handed role => ?_,
      fun before => ?_, fun beyond near => ?_⟩⟩
  · have event : receiveAck a s = s.linked s.frameCounted := by
      rw [receiveAck, if_pos checks, if_neg down, countFrame_between between]
      rfl
    exact ⟨_, exec_ack noRoom event, finish_keeps (w := s.linked s.frameCounted) stall⟩
  · have event : receiveAck a s = s := by rw [receiveAck, if_neg (not_checksFrames_off off), passFrame_off off]
    exact ⟨_, exec_ack noRoom event, finish_keeps stall⟩
  · have event : receiveAck a s = s.onLink fun l => { l with alignCount := 0 } := by
      rw [receiveAck, if_neg (not_checksFrames_train train early), passFrame_train train]
    exact ⟨_, exec_ack noRoom event, finish_keeps (w := s.onLink fun l => { l with alignCount := 0 }) stall⟩
  · obtain ⟨v, c, d, resolved, event, left, timer, idle, done⟩ :=
      resolveApplied_resolved (s := s.linked s.frameCounted) rfl positive sent
        (fun e he hands => stays ⟨hands.1.1, hands.1.2, e, he, hands.2⟩) flight.form flight.once
    have given : c = s.rc ∨ s.rc.role = .handoff ∧ c = { s.rc with closing := true, handoff := none } := by
      by_cases h : v.doneHandingOff
      · exact .inr ⟨(congrArg (·.role) resolved.rc).symm.trans h.1.1, (done h).1⟩
      · exact .inl (idle h).1
    obtain ⟨p, ends⟩ := finish_resolved (b := s) (d := d) resolved stall given
    have run := exec_ack noRoom ((receiveAck_up up between).trans event)
    generalize finish s { v with rc := c, disp := d } = t at run ends
    obtain ⟨windows, rts, journals, disp, link, apply, pass, rc, mem, -, -⟩ := unreported_fields ends
    have bits : t.csu.pendingSet = v.csu.pendingSet := field_of_unreported ends (·.csu.pendingSet) fun _ => rfl
    have converges : ((s.rc.role = .handoff ∧ s.rc.closing = false) ∧ dirtyTotal v.rts = 0 ∧ flightTotal v.rts = 0 ∧
        v.journals.queue = [] ∧ v.pass.phase = .none ∧
        ∀ k : Slot, v.journals.states[k] = none ∨ v.journals.states[k] = some .inStep) ↔ v.doneHandingOff := by
      rw [State.doneHandingOff, resolved.rc]
      rfl
    refine ⟨t, run, ?_⟩
    rw [windows, rts, journals, disp, link, apply, pass, rc, mem, bits]
    exact ⟨left, resolved.link, ⟨fun h => idle fun x => h (converges.2 x), fun h => done (converges.1 h)⟩, timer,
      resolved.queue, resolved.tags, resolved.states,
      fun completing ⟨x, hx, g, item, started⟩ => resolved.ended ⟨x, hx, completing, g, item, started⟩,
      resolved.mem, resolved.windows, resolved.apply⟩
  · have ended := resolveApplied_handsOver (s := s.linked s.frameCounted) rfl positive sent ⟨handoff, closing⟩
      (role.handoff.1 handoff) up handed
    have free := free_of_not_captures stall (not_captures_closing handoff closing)
    have ends := finish_unreported s (resolveApplied a (s.linked s.frameCounted))
      fun x k held => free x k ((stalled_of_outer ended.outer).1 held)
    have run := exec_ack noRoom (receiveAck_up (a := a) up between)
    generalize finish s (resolveApplied a (s.linked s.frameCounted)) = t at run ends
    obtain ⟨-, rts, journals, disp, link, -, pass, rc, -⟩ := unreported_fields ends
    have running : t.csu.running = _ := field_of_unreported ends (·.csu.running) fun _ => rfl
    have result : t.csu.result = _ := field_of_unreported ends (·.csu.result) fun _ => rfl
    refine ⟨t, run, ?_⟩
    rw [rts, journals, disp, link, pass, rc, running, result]
    exact ⟨ended.link, ended.inFlight, ended.queue, ended.rts, ended.refreshing, ended.rc, ended.running, ended.result⟩
  · have event := (receiveAck_up up between).trans (resolveApplied_before (s := s.linked s.frameCounted) rfl before)
    exact ⟨_, exec_ack noRoom event, finish_keeps (w := s.linked s.frameCounted) stall⟩
  · have event := (receiveAck_up up between).trans (resolveApplied_error (s := s.linked s.frameCounted) rfl beyond near)
    exact ⟨_, exec_ack noRoom event, finish_keeps (w := (s.linked s.frameCounted).onLink fun l =>
      { l with protocolErrors := saturatingInc l.protocolErrors }) stall⟩
end
